-- ==== Sys2Proof/Word.lean ====
section
/-! DEFINITION. The word types of the CORE (00_scope R8, R9; 10_state R22, R37, R38): bytes, register words, cipher blocks and the RC4 permutation array. -/

namespace Sys2Proof

/-- A byte, an unsigned integer in [0, 255] (R8). -/
abbrev Byte := BitVec 8

/-- A register of the register block, 32 bits unsigned (R22). -/
abbrev Word := BitVec 32

/-- A 16-byte block of the block cipher, index 0 first (R5 `BLK`, R53). -/
abbrev Block := Vector Byte 16

/-- The RC4 array `S`, 256 entries of 8 bits (R37). -/
abbrev SBox := Vector Byte 256

/-- The XOR datapath on one byte (R131). -/
abbrev xorByte (a b : Byte) : Byte := a ^^^ b

end Sys2Proof
end

