-- ==== Sys2Proof/Config.lean ====
section
/-! DEFINITION. What an implementation fixes and what the spec leaves open (00_scope R5; 93 I1 to I10): the parameters of a machine, and ONE uninterpreted environment that holds the block cipher and every free value. -/

namespace Sys2Proof

/-- The open parameters of R5 that are numbers. Each field admits exactly the values the spec admits, by its type
(DESIGN CHOICE, assumption 2). -/
structure Params where
  /-- `MEM_SIZE - 1`: every `MEM_SIZE` with 1 <= MEM_SIZE <= 2^32 (R5). -/
  memSizeLessOne : BitVec 32
  /-- `KEY_SIZES` as the mask of R35: bit k-1 says that k is accepted, k in [1, 32]. -/
  keySizeMask : BitVec 32
  /-- `CORE_BASE`, the host-bus address of the register block (R5, R22). -/
  coreBase : Nat
deriving DecidableEq, Repr, Inhabited

/-- `MEM_SIZE` (R5). -/
def Params.memSize (p : Params) : Nat := p.memSizeLessOne.toNat + 1

/-- `k in KEY_SIZES` (R5, R35). -/
def Params.acceptsKey (p : Params) (k : Nat) : Bool :=
  decide (1 ≤ k) && decide (k ≤ 32) && p.keySizeMask.getLsbD (k - 1)

/-- `KSIZES_VAL` (R35). -/
def Params.ksizesVal (p : Params) : Word := p.keySizeMask

/-- The open parameters and free values that are functions. -/
structure Environment where
  /-- `BC` under a key of an accepted size: a permutation of the blocks. `BC.E` is the permutation and `BC.D` its inverse,
  which is all R7 assumes (a left inverse on a finite set is an inverse; DEDUCED, assumption 3). -/
  blockCipher : List Byte → Equiv.Perm Block
  /-- `BC.E` under a key of a size not in `KEY_SIZES`: R7 assumes nothing of it, and no command runs it (R105). -/
  otherEncrypt : List Byte → Block → Block
  /-- `BC.D` under a key of a size not in `KEY_SIZES`: R7 assumes nothing of it, and no command runs it (R105). -/
  otherDecrypt : List Byte → Block → Block
  /-- Whether entropy draw number d of n bytes answers `exhausted`, where no answer is pending (R121; I6). -/
  entropyExhausted : (d n : Nat) → Bool
  /-- Byte k of the answer of entropy draw number d, where no pending answer gives it (R121; I5). -/
  entropyByte : (d k : Nat) → Byte
  /-- Free byte number c, for the "any value" of R64 (a), R64 (b) and R230 (I9, I10, I11). -/
  freeByte : (c : Nat) → Byte
  /-- What DMEM holds at an address nothing has written since power-up (R232; I8). -/
  powerUpByte : (a : Nat) → Byte
deriving Inhabited

/-- `BC.E` under key `k` (R5, R7). -/
def Environment.encryptBlock (env : Environment) (p : Params) (k : List Byte) (b : Block) : Block :=
  if p.acceptsKey k.length then env.blockCipher k b else env.otherEncrypt k b

/-- `BC.D` under key `k` (R5, R7). -/
def Environment.decryptBlock (env : Environment) (p : Params) (k : List Byte) (b : Block) : Block :=
  if p.acceptsKey k.length then (env.blockCipher k).symm b else env.otherDecrypt k b

/-- The parameters of the machine that leaves reset. No body: nothing proved can rest on a particular memory size, set of
key sizes or base address (DESIGN CHOICE, assumption 2). -/
opaque Config.params : Params

/-- The environment the machine runs in. No body: nothing proved can rest on a particular block cipher, entropy answer,
free byte or power-up content (assumptions 3 to 7). -/
opaque Config.env : Environment

end Sys2Proof
end

