-- ==== Sys2Proof/Syntax.lean ====
section
/-! DEFINITION. The five commands (30_encoding R70 to R75), the registers by name (10_state R22), the statements of a host program (30_encoding R76) and the agents a step may belong to (10_state R20). -/

namespace Sys2Proof

/-- The commands of the opcode map, one per row of the opcode table (R71). A command has no operand field (R70, R72). -/
inductive Instr where
  | genkey
  | xor
  | rc4
  | cbcenc
  | cbcdec
deriving DecidableEq, Repr

/-- The registers of the register block, by name (R22). -/
inductive Reg where
  | id
  | ctrl
  | status
  | cmd
  | src
  | len
  | key
  | klen
  | dst
  | outlen
  | errinfo
  | blksz
  | ksizes
deriving DecidableEq, Repr

/-- One statement of a host program as the bus accesses it stands for (R76; the DMEM byte read is R50's). `addr` is a
host-bus address, `width` the access width in bits, `a` a DMEM byte address. -/
inductive HostStmt where
  | busRead (addr width : Nat)
  | busWrite (addr width : Nat) (v : Word)
  | wait
  | memRead (a : Nat)
  | memWrite (a : Nat) (bs : List Byte)
deriving DecidableEq, Repr

/-- An answer of the entropy source (41_keymaterial R121): exhausted, or bytes. -/
inductive EntropyAnswer where
  | exhausted
  | ok (bs : List Byte)
deriving DecidableEq, Repr

/-- Whose step comes next: the host's, the core's completion step (R104), or the platform's reset (R230). -/
inductive Turn where
  | host
  | core
  | reset
deriving DecidableEq, Repr

end Sys2Proof
end

