-- ==== Sys2Proof/Decode.lean ====
section
/-! DEFINITION. Decoding a command word and encoding a command (30_encoding R70, R71, R74, R75). The word is the 32-bit value written to CMD; the CORE fetches no instruction bytes (10_state R21). -/

namespace Sys2Proof

/-- Why a word is no command (R74, R201 ERR_ILLEGAL). -/
inductive DecodeError where
  /-- `RSVD != 0`, CAUSE 2. -/
  | reservedBits
  /-- `RSVD = 0` and `OP` not in 0x01 to 0x05, CAUSE 1. -/
  | unknownOpcode
deriving DecidableEq, Repr

/-- The field `OP`, bits [7:0] (R70). -/
def opField (w : Word) : BitVec 8 := w.extractLsb' 0 8

/-- The field `RSVD`, bits [31:8] (R70). -/
def rsvdField (w : Word) : BitVec 24 := w.extractLsb' 8 24

/-- The opcode map (R71). -/
def opcodeMap (op : BitVec 8) : Option Instr :=
  if op = 0x01#8 then some .genkey
  else if op = 0x02#8 then some .xor
  else if op = 0x03#8 then some .rc4
  else if op = 0x04#8 then some .cbcenc
  else if op = 0x05#8 then some .cbcdec
  else none

/-- Decoding is total: the reserved bits are judged first, then the opcode (R74, R105). -/
def decode (w : Word) : Except DecodeError Instr :=
  if rsvdField w ≠ 0#24 then .error .reservedBits
  else match opcodeMap (opField w) with
    | some i => .ok i
    | none => .error .unknownOpcode

/-- The opcode of a command (R71, column OP). -/
def opcodeOf : Instr → BitVec 8
  | .genkey => 0x01#8
  | .xor => 0x02#8
  | .rc4 => 0x03#8
  | .cbcenc => 0x04#8
  | .cbcdec => 0x05#8

/-- The word of a command: RSVD = 0 above the opcode (R70, R71). -/
def encode (i : Instr) : Word := 0#24 ++ opcodeOf i

/-- The command the decoder reads from a row's bits. There is one command length, 32 bits (R75): a number that does not
fit in 32 bits is no command word. -/
def decodeTableWord (nbits w : Nat) : Option Instr :=
  if 2 ^ 32 ≤ w % 2 ^ nbits then none
  else match decode (BitVec.ofNat 32 (w % 2 ^ nbits)) with
    | .ok i => some i
    | .error _ => none

end Sys2Proof
end

