-- ==== Sys2Proof/Machine/State.lean ====
section
/-! DEFINITION. The state of the CORE (10_state R20 to R41), the model's own bookkeeping of the host, the schedule and the free values, and the reasons a step may stop. -/

namespace Sys2Proof.Machine

/-- DMEM as the bytes written since power-up, addresses strictly rising (20_memory R50; DESIGN CHOICE, assumption 6). -/
abbrev Memory := List Host.Cell

/-- The command latch `L` (R33). -/
structure Latch where
  cmd : Word
  src : Word
  len : Word
  key : Word
  klen : Word
  dst : Word
deriving DecidableEq, Repr

/-- The RC4 machine in its KSA phase: step counter, the KSA's own index, the array (R37, R140). -/
structure KsaState where
  n : Nat
  j : Byte
  sbox : SBox
deriving DecidableEq, Repr

/-- The RC4 machine in its PRGA phase: bytes processed, cursors, the array, the output so far (R37, R140). -/
structure PrgaState where
  k : Nat
  i : Byte
  j : Byte
  sbox : SBox
  out : List Byte
deriving DecidableEq, Repr

/-- The RC4 register file, in one of its two phases (R140). -/
inductive Rc4State where
  | ksa (st : KsaState)
  | prga (st : PrgaState)
deriving DecidableEq, Repr

/-- The chaining register `PREV` and the block counter (R38). -/
structure CbcState where
  prev : Block
  m : Nat
deriving DecidableEq, Repr

/-- What a read returned to the host (R76): a register word, or a DMEM byte (R50). -/
inductive HostResult where
  | word (v : Word)
  | byte (v : Byte)
deriving DecidableEq, Repr

/-- The full state of R20. ID, BLKSZ and KSIZES are constants, CMD and the reserved slots hold nothing and IRQ is
computed, so none of them is a field. -/
structure State where
  /-- MEM_SIZE, KEY_SIZES and CORE_BASE of this machine (R5). No step changes them (DESIGN CHOICE, assumption 2). -/
  params : Params
  /-- CTRL.IE (R26). -/
  ie : Bool
  /-- STATUS.BUSY (R27, R100). -/
  busy : Bool
  /-- STATUS.DONE (R27). -/
  done : Bool
  /-- STATUS.OVR (R27). -/
  ovr : Bool
  /-- STATUS.ERR (R27, R200). -/
  err : BitVec 4
  /-- SRC (R30). -/
  src : Word
  /-- LEN (R30). -/
  len : Word
  /-- KEY (R30). -/
  key : Word
  /-- KLEN (R30). -/
  klen : Word
  /-- DST (R30). -/
  dst : Word
  /-- OUTLEN (R31). -/
  outlen : Word
  /-- ERRINFO.CAUSE (R32, R201). -/
  cause : BitVec 8
  /-- The command latch, absent between commands (R33). -/
  latch : Option Latch
  /-- The RC4 register file, absent outside an RC4 command (R37, R39; DEDUCED, assumption 17). -/
  rc4 : Option Rc4State
  /-- The chaining state, absent outside a CBC command (R38, R39; DEDUCED, assumption 17). -/
  cbc : Option CbcState
  /-- DMEM (R41, R50). -/
  dmem : Memory
  /-- The model-only race fault mark (R217). -/
  raceMark : Bool
  /-- The model's own: the running command has raced with a host write (DESIGN CHOICE, assumption 7). -/
  raced : Bool
  /-- The model's own: the answers the entropy source has ready, next first (DESIGN CHOICE, assumption 4). -/
  entropyAnswers : List EntropyAnswer
  /-- The model's own: how many entropy draws were made (DESIGN CHOICE, assumption 4). -/
  entropyDraws : Nat
  /-- The model's own: how many free bytes were taken (DESIGN CHOICE, assumption 5). -/
  freeDraws : Nat
  /-- The model's own: the host statements still to perform, next first (DESIGN CHOICE, assumption 1). -/
  inputs : List HostStmt
  /-- The model's own: whose turn it is, next first (DESIGN CHOICE, assumption 1). -/
  turns : List Turn
  /-- The model's own: what the host's reads returned, newest first (DESIGN CHOICE, assumption 1). -/
  results : List HostResult
deriving DecidableEq, Repr

/-- Right after reset (R22's reset column, R230, R233): IDLE, every register 0, latch and hidden state absent, nothing
known of DMEM (R232), the parameters free (R5). The model's own fields start empty (assumptions 1, 4 and 5). -/
def State.reset : State where
  params := Config.params
  ie := false
  busy := false
  done := false
  ovr := false
  err := 0#4
  src := 0#32
  len := 0#32
  key := 0#32
  klen := 0#32
  dst := 0#32
  outlen := 0#32
  cause := 0#8
  latch := none
  rc4 := none
  cbc := none
  dmem := []
  raceMark := false
  raced := false
  entropyAnswers := []
  entropyDraws := 0
  freeDraws := 0
  inputs := []
  turns := []
  results := []

/-- The reasons the machine stops with a fault. The CORE itself never traps (R207). -/
inductive Fault where
  /-- Raised by a completion step with no latched command: R33 says the step is taken only when the latch was set, so no
  run reaches it. Safe: the model stops where the spec gives no step. -/
  | noCommandLatched
  /-- Raised by a host DMEM access at or above MEM_SIZE, an address that does not exist (R50). Safe: the model stops
  where the spec says nothing. -/
  | hostAddressAbsent
deriving DecidableEq, Repr

/-- The reasons the model refuses. -/
inductive Refusal where
  /-- Raised by an arm of `exec` that has no meaning yet. Safe. No arm raises it. -/
  | notModelled (mnemonic : String)
  /-- Raised by a host register access of another width than 32 bits, misaligned, or outside the block (R23, R216). Safe:
  a refused run satisfies no claim. -/
  | unsupportedRegisterAccess
deriving DecidableEq, Repr

end Sys2Proof.Machine
end

