-- ==== Sys2Proof/Machine/Flags.lean ====
section
/-! DEFINITION. The status register, the interrupt output and the error codes (10_state R27, R36, R40; 60_exceptions R200, R201). The CORE has no arithmetic condition codes (R40). -/

namespace Sys2Proof.Machine

/-- The errors a command may complete with, one per row of R201. -/
inductive CmdError where
  | illegalOpcode
  | illegalReserved
  | lengthMismatch
  | emptyKey
  | keySize
  | overlap
  | formatShort
  | formatLength
  | rangeSource
  | rangeKey
  | rangeDest
  | entropyExhausted
  | paddingCount
  | paddingBytes
deriving DecidableEq, Repr

/-- `STATUS.ERR` of an error (R200). -/
def CmdError.code : CmdError → BitVec 4
  | .illegalOpcode => 1#4
  | .illegalReserved => 1#4
  | .lengthMismatch => 2#4
  | .emptyKey => 2#4
  | .keySize => 2#4
  | .overlap => 2#4
  | .formatShort => 3#4
  | .formatLength => 3#4
  | .paddingCount => 4#4
  | .paddingBytes => 4#4
  | .entropyExhausted => 5#4
  | .rangeSource => 6#4
  | .rangeKey => 6#4
  | .rangeDest => 6#4

/-- `ERRINFO.CAUSE` of an error (R201). -/
def CmdError.cause : CmdError → BitVec 8
  | .illegalOpcode => 1#8
  | .illegalReserved => 2#8
  | .lengthMismatch => 1#8
  | .emptyKey => 2#8
  | .keySize => 3#8
  | .overlap => 4#8
  | .formatShort => 1#8
  | .formatLength => 2#8
  | .paddingCount => 1#8
  | .paddingBytes => 2#8
  | .entropyExhausted => 1#8
  | .rangeSource => 1#8
  | .rangeKey => 2#8
  | .rangeDest => 3#8

/-- The error an undecodable word completes with (R74, R105, R201). -/
def illegalWordError : DecodeError → CmdError
  | .reservedBits => .illegalReserved
  | .unknownOpcode => .illegalOpcode

/-- What a read of STATUS returns: BUSY[0], DONE[1], OVR[2], ERR[7:4], every other bit 0 (R27). -/
def State.statusWord (s : State) : Word :=
  0#24 ++ s.err ++ 0#1 ++ BitVec.ofBool s.ovr ++ BitVec.ofBool s.done ++ BitVec.ofBool s.busy

/-- The interrupt output, a level (R36, R206). -/
def State.irq (s : State) : Bool := s.ie && s.done

end Sys2Proof.Machine
end

