-- ==== Sys2Proof/Machine/Operands.lean ====
section
/-! DEFINITION. The operands of a command: its windows, the range and overlap checks, and the check pipeline that judges the latch before any DMEM byte is read (40_command_framework R105 to R108). All lengths and addresses are unbounded naturals (00_scope R9). -/

namespace Sys2Proof.Machine

/-- A window (start, size): the addresses start, ..., start + size - 1 (R106). -/
structure Window where
  start : Nat
  size : Nat
deriving DecidableEq, Repr

/-- The window of an operand a command does not have (R106). -/
def Window.unused : Window := ⟨0, 0⟩

/-- The address lies in the window (R106). -/
def Window.covers (w : Window) (a : Nat) : Bool := decide (w.start ≤ a) && decide (a < w.start + w.size)

/-- `inRange` (R107). -/
def Window.inRange (p : Params) (w : Window) : Bool := decide (w.size = 0) || decide (w.start + w.size ≤ p.memSize)

/-- `overlap` (R108). -/
def Window.overlaps (v w : Window) : Bool :=
  decide (0 < v.size) && decide (0 < w.size) && decide (v.start < w.start + w.size) && decide (w.start < v.start + v.size)

/-- The source, key and destination windows of a command. -/
structure Windows where
  source : Window
  key : Window
  dest : Window
deriving DecidableEq, Repr

/-- The windows of a command that has none (R106). -/
def Windows.none : Windows := ⟨Window.unused, Window.unused, Window.unused⟩

/-- The length of the blob CBCENC writes for a plaintext of n bytes (R106, R178). -/
def blobLength (n : Nat) : Nat := 16 + 16 * (n / 16 + 1)

/-- `windows(op, L)` (R106). The CBCDEC destination size is read only after LEN >= 32 was checked; below 17 the
subtraction gives 0 (DEDUCED, assumption 8). -/
def windows (i : Instr) (L : Latch) : Windows :=
  match i with
  | .genkey => ⟨Window.unused, Window.unused, ⟨L.dst.toNat, L.len.toNat⟩⟩
  | .xor => ⟨⟨L.src.toNat, L.len.toNat⟩, ⟨L.key.toNat, L.klen.toNat⟩, ⟨L.dst.toNat, L.len.toNat⟩⟩
  | .rc4 => ⟨⟨L.src.toNat, L.len.toNat⟩, ⟨L.key.toNat, L.klen.toNat⟩, ⟨L.dst.toNat, L.len.toNat⟩⟩
  | .cbcenc => ⟨⟨L.src.toNat, L.len.toNat⟩, ⟨L.key.toNat, L.klen.toNat⟩, ⟨L.dst.toNat, blobLength L.len.toNat⟩⟩
  | .cbcdec => ⟨⟨L.src.toNat, L.len.toNat⟩, ⟨L.key.toNat, L.klen.toNat⟩, ⟨L.dst.toNat, L.len.toNat - 17⟩⟩

/-- `overlapBad(op, Ws, Wk, Wd)` (R108). -/
def overlapBad (i : Instr) (L : Latch) : Bool :=
  let w := windows i L
  match i with
  | .genkey => false
  | .xor => w.dest.overlaps w.key || (w.dest.overlaps w.source && decide (L.dst ≠ L.src))
  | .rc4 => w.dest.overlaps w.key || (w.dest.overlaps w.source && decide (L.dst ≠ L.src))
  | .cbcenc => w.dest.overlaps w.key || w.dest.overlaps w.source
  | .cbcdec => w.dest.overlaps w.key || w.dest.overlaps w.source

/-- The operand preconditions of R105, "invalid input", rejected before any access. -/
def preconditionError (p : Params) (i : Instr) (L : Latch) : Option CmdError :=
  match i with
  | .genkey => none
  | .xor => if L.klen ≠ L.len then some .lengthMismatch else none
  | .rc4 => if L.klen.toNat = 0 then some .emptyKey else none
  | .cbcenc => if p.acceptsKey L.klen.toNat then none else some .keySize
  | .cbcdec => if p.acceptsKey L.klen.toNat then none else some .keySize

/-- The blob format checks of R105, CBCDEC only. -/
def formatError (i : Instr) (L : Latch) : Option CmdError :=
  match i with
  | .genkey => none
  | .xor => none
  | .rc4 => none
  | .cbcenc => none
  | .cbcdec =>
    if L.len.toNat < 32 then some .formatShort
    else if L.len.toNat % 16 ≠ 0 then some .formatLength
    else none

/-- The range checks of R105: source, key, destination, in this order (R107). -/
def rangeError (p : Params) (i : Instr) (L : Latch) : Option CmdError :=
  if (windows i L).source.inRange p = false then some .rangeSource
  else if (windows i L).key.inRange p = false then some .rangeKey
  else if (windows i L).dest.inRange p = false then some .rangeDest
  else none

/-- The overlap check of R105 (R108). -/
def overlapError (i : Instr) (L : Latch) : Option CmdError :=
  if overlapBad i L then some .overlap else none

/-- The check pipeline of R105 for a legal command: the first error that applies, or none (R203). It reads the latch and
the constants only. -/
def checkError (p : Params) (i : Instr) (L : Latch) : Option CmdError :=
  match preconditionError p i L with
  | some e => some e
  | none =>
    match formatError i L with
    | some e => some e
    | none =>
      match rangeError p i L with
      | some e => some e
      | none => overlapError i L

/-- The windows the latched word owns while BUSY (R64, R106); an illegal word has none (DEDUCED, assumption 8). -/
def latchedWindows (L : Latch) : Windows :=
  match decode L.cmd with
  | .ok i => windows i L
  | .error _ => Windows.none

end Sys2Proof.Machine
end

