-- ==== Sys2Proof/Machine/Ops.lean ====
section
/-! DEFINITION. The named operations: DMEM (20_memory R50, 00_scope R10), free bytes and entropy draws (41 R121), issue (40 R102), success and error completion (R109, R110: the CORE takes no trap, this is how an error is taken), scrub (R111), acknowledge (60 R208) and reset (70 R230). -/

namespace Sys2Proof.Machine

/-- The listed byte at an address, if any. -/
def Memory.lookup : Memory → Nat → Option Byte
  | [], _ => none
  | (k, v) :: m, a => if k = a then some v else Memory.lookup m a

/-- One byte of DMEM. An unlisted address reads as what power-up left there, which is free (R232; DESIGN CHOICE, assumption 6). -/
def Memory.read (env : Environment) (m : Memory) (a : Nat) : Byte :=
  match Memory.lookup m a with
  | some v => v
  | none => env.powerUpByte a

/-- Put a byte into its place among rising addresses. -/
def Memory.insert : Memory → Nat → Byte → Memory
  | [], a, v => [(a, v)]
  | (k, u) :: m, a, v =>
    if a < k then (a, v) :: (k, u) :: m
    else if a = k then (a, v) :: m
    else (k, u) :: Memory.insert m a v

/-- Write one byte. Every address that was written is listed, once and in its place. -/
def Memory.write (m : Memory) (a : Nat) (v : Byte) : Memory := Memory.insert m a v

/-- Every address in the list lies above `lo`, and they rise strictly. -/
def Memory.risesAbove : Nat → Memory → Bool
  | _, [] => true
  | lo, (k, _) :: m => decide (lo < k) && Memory.risesAbove k m

/-- Addresses rise strictly. -/
def Memory.rises : Memory → Bool
  | [] => true
  | (k, _) :: m => Memory.risesAbove k m

/-- The canonical form: addresses rise strictly, so one address has one entry. An unlisted address has no value of its
own (it reads as a free byte), so no entry can equal what it lists; memories that list the same bytes are the same list
(DESIGN CHOICE, assumption 6). -/
def Memory.wf (m : Memory) : Bool := Memory.rises m

/-- Every listed address exists: it lies below MEM_SIZE (R50). -/
def Memory.inside (p : Params) (m : Memory) : Bool := m.all (fun c => decide (c.1 < p.memSize))

/-- `MemRead(addr, n)` (R10). -/
def Memory.readBytes (env : Environment) (m : Memory) (a : Nat) : Nat → List Byte
  | 0 => []
  | n + 1 => Memory.read env m a :: Memory.readBytes env m (a + 1) n

/-- `MemWrite(addr, |v|, v)` (R10). -/
def Memory.writeBytes (m : Memory) (a : Nat) : List Byte → Memory
  | [] => m
  | b :: bs => Memory.writeBytes (Memory.write m a b) (a + 1) bs

/-- Free bytes number c, c + 1, ..., c + n - 1 (DESIGN CHOICE, assumption 5). -/
def freeBytes (env : Environment) (c n : Nat) : List Byte := (List.range n).map (fun k => env.freeByte (c + k))

/-- The bytes of a command's input window (R112). A command that raced with a host write reads free bytes: nothing is
guaranteed of its outputs (R64 (b); DESIGN CHOICE, assumption 7). -/
def State.readWindow (env : Environment) (w : Window) (s : State) : List Byte × State :=
  if s.raced then (freeBytes env s.freeDraws w.size, { s with freeDraws := s.freeDraws + w.size })
  else (Memory.readBytes env s.dmem w.start w.size, s)

/-- What a successful command writes: its output; free bytes when the command raced with a host write, for nothing is
guaranteed of its outputs (R64 (b); DESIGN CHOICE, assumption 7). -/
def State.outputBytes (env : Environment) (out : List Byte) (s : State) : List Byte × State :=
  if s.raced then (freeBytes env s.freeDraws out.length, { s with freeDraws := s.freeDraws + out.length })
  else (out, s)

/-- The answer of the next entropy draw, of n bytes: exhausted, or exactly n bytes (R121). A ready answer is taken first;
where it has no byte k, and where none is ready, the value is free (DESIGN CHOICE, assumption 4). -/
def State.entropyAnswer (env : Environment) (n : Nat) (s : State) : Option (List Byte) :=
  match s.entropyAnswers with
  | .exhausted :: _ => none
  | .ok bs :: _ => some ((List.range n).map (fun k => bs.getD k (env.entropyByte s.entropyDraws k)))
  | [] =>
    if env.entropyExhausted s.entropyDraws n then none
    else some ((List.range n).map (env.entropyByte s.entropyDraws))

/-- The answer is taken: the next draw has a fresh one (R121, R122). -/
def State.consumeEntropy (s : State) : State :=
  { s with entropyAnswers := s.entropyAnswers.tail, entropyDraws := s.entropyDraws + 1 }

/-- `Entropy(n)` (R10, R121): one draw. -/
def State.drawEntropy (env : Environment) (n : Nat) (s : State) : Option (List Byte) × State :=
  (s.entropyAnswer env n, s.consumeEntropy)

/-- The latch an issue of word `w` takes (R33, R102). -/
def State.latchFor (w : Word) (s : State) : Latch := ⟨w, s.src, s.len, s.key, s.klen, s.dst⟩

/-- Issue of a command word (R102). The word is not decoded here. -/
def State.issue (w : Word) (s : State) : State :=
  { s with
    latch := some (s.latchFor w)
    busy := true
    done := false
    err := 0#4
    cause := 0#8
    outlen := 0#32
    raced := false }

/-- Scrub the hidden state (R39, R111). -/
def State.scrub (s : State) : State := { s with latch := none, rc4 := none, cbc := none, raced := false }

/-- `finish()` (R109). -/
def State.finish (s : State) : State := { s.scrub with busy := false, done := true }

/-- `succeed(d, out)` (R109). -/
def State.succeed (d : Nat) (out : List Byte) (s : State) : State :=
  { s.finish with
    dmem := Memory.writeBytes s.dmem d out
    outlen := BitVec.ofNat 32 out.length
    err := 0#4
    cause := 0#8 }

/-- `raise E(c)`: the error completion (R110). DMEM is not written. -/
def State.failWith (e : CmdError) (s : State) : State :=
  { s.finish with err := e.code, cause := e.cause, outlen := 0#32 }

/-- A command's `run_op`: its output bytes or an error, and the state with the hidden state it used and the draws it made. -/
abbrev Run := Environment → Latch → State → Except CmdError (List Byte) × State

/-- The completion step of a legal command (R104, R105): the checks, then `run_op`, then success or error. -/
def complete (env : Environment) (i : Instr) (run : Run) (L : Latch) (s : State) : State :=
  match checkError s.params i L with
  | some e => s.failWith e
  | none =>
    match run env L s with
    | (.ok out, s') => (s'.outputBytes env out).2.succeed L.dst.toNat (s'.outputBytes env out).1
    | (.error e, s') => s'.failWith e

/-- The completion step on the latch (R104). Without a latch there is no such step (R33; DESIGN CHOICE, assumption 10). -/
def completeLatched (env : Environment) (i : Instr) (run : Run) (s : State) : Host.Outcome State Fault Refusal :=
  match s.latch with
  | none => .fault .noCommandLatched
  | some L => .next (complete env i run L s)

/-- A host write to STATUS, the acknowledge of a completion: DONE and OVR are W1C, nothing is restored (R28, R208). -/
def State.acknowledge (v : Word) (s : State) : State :=
  { s with done := s.done && !v.getLsbD 1, ovr := s.ovr && !v.getLsbD 2 }

/-- The destination bytes that exist of a command cut by reset: how many of its window lie below MEM_SIZE (R230;
DEDUCED, assumption 9). -/
def Window.existing (p : Params) (w : Window) : Nat := min w.size (p.memSize - w.start)

/-- The reset input (R230): registers, latch and hidden state as after reset; DMEM keeps its bytes (R232), but those of
the destination window of a command that was running take free values; the race mark stays (R217). Whether the host goes
on after a reset of the CORE the spec does not say: its program, the schedule and what its reads returned stay, and so do
the pending entropy answers and the counters of free values (DESIGN CHOICE, assumption 18). -/
def State.resetInput (env : Environment) (s : State) : State :=
  let w : Window := match s.latch with
    | some L => (latchedWindows L).dest
    | none => Window.unused
  let n := w.existing s.params
  { State.reset with
    params := s.params
    dmem := Memory.writeBytes s.dmem w.start (freeBytes env s.freeDraws n)
    raceMark := s.raceMark
    entropyAnswers := s.entropyAnswers
    entropyDraws := s.entropyDraws
    freeDraws := s.freeDraws + n
    inputs := s.inputs
    turns := s.turns
    results := s.results }

end Sys2Proof.Machine
end

