-- ==== Sys2Proof/Machine/Vernam.lean ====
section
/-! DEFINITION. The XOR datapath and the XOR command (42_vernam R130 to R134). -/

namespace Sys2Proof.Machine

/-- `xorBytes` (R9, R131), used for equal lengths only. -/
def xorBytes (a b : List Byte) : List Byte := List.zipWith xorByte a b

/-- `run_XOR` (R130). -/
def runXor : Run := fun env L s =>
  let (d, s₁) := s.readWindow env (windows .xor L).source
  let (k, s₂) := s₁.readWindow env (windows .xor L).key
  (.ok (xorBytes d k), s₂)

/-- XOR in a given environment. -/
def execXorWith (env : Environment) (s : State) : Host.Outcome State Fault Refusal :=
  completeLatched env .xor runXor s

/-- XOR (R130). -/
def execXor (s : State) : Host.Outcome State Fault Refusal := execXorWith Config.env s

end Sys2Proof.Machine
end

