-- ==== Sys2Proof/Machine/Cbc.lean ====
section
/-! DEFINITION. The block-cipher chaining engine, the padding and its validator, CBCENC and CBCDEC (44_cbc R170 to R180). -/

namespace Sys2Proof.Machine

/-- The bytes of a block, index 0 first. -/
def Block.bytes (b : Block) : List Byte := b.toList

/-- Block m of a byte sequence: its bytes [16m, 16m + 16) (R53). -/
def blockAt (l : List Byte) (m : Nat) : Block := ⟨⟨(List.range 16).map (fun i => l.getD (16 * m + i) 0#8)⟩, by simp⟩

/-- The blocks of a byte sequence whose length is a multiple of 16. -/
def blocksOf (l : List Byte) : List Block := (List.range (l.length / 16)).map (blockAt l)

/-- The XOR datapath on blocks (R131, R172, R173). -/
def xorBlock (a b : Block) : Block := blockAt (xorBytes (Block.bytes a) (Block.bytes b)) 0

/-- The number of padding bytes, `N(P)` (R170). -/
def padCount (P : List Byte) : Nat := 16 - P.length % 16

/-- `pad(P)` (R170). -/
def pad (P : List Byte) : List Byte := P ++ List.replicate (padCount P) (BitVec.ofNat 8 (padCount P))

/-- The padding validator (R171). -/
def padCheck (B : Block) : Except CmdError Nat :=
  let N := B[15].toNat
  if N < 1 ∨ 16 < N then .error .paddingCount
  else if (Block.bytes B).drop (16 - N) ≠ List.replicate N (BitVec.ofNat 8 N) then .error .paddingBytes
  else .ok N

/-- The chaining loop of encryption over the blocks that are left (R172): the ciphertext and the chaining state. -/
def cbcEncLoop (E : Block → Block) : CbcState → List Block → List Byte × CbcState
  | st, [] => ([], st)
  | st, b :: bs =>
    let c := E (xorBlock b st.prev)
    let r := cbcEncLoop E ⟨c, st.m + 1⟩ bs
    (Block.bytes c ++ r.1, r.2)

/-- The chaining loop of decryption over the blocks that are left (R173). -/
def cbcDecLoop (D : Block → Block) : CbcState → List Block → List Byte × CbcState
  | st, [] => ([], st)
  | st, c :: cs =>
    let p := xorBlock (D c) st.prev
    let r := cbcDecLoop D ⟨c, st.m + 1⟩ cs
    (Block.bytes p ++ r.1, r.2)

/-- `cbcEnc(k, IV, Q)` (R172), with `E = BC.E(k, .)`. -/
def cbcEnc (E : Block → Block) (iv : Block) (Q : List Byte) : List Byte := (cbcEncLoop E ⟨iv, 0⟩ (blocksOf Q)).1

/-- `cbcDec(k, IV, C)` (R173), with `D = BC.D(k, .)`. -/
def cbcDec (D : Block → Block) (iv : Block) (C : List Byte) : List Byte := (cbcDecLoop D ⟨iv, 0⟩ (blocksOf C)).1

/-- The chaining register takes the IV, the block counter 0 (R38, R172, R173). -/
def State.startChain (iv : Block) (s : State) : State := { s with cbc := some ⟨iv, 0⟩ }

/-- Run the encryption loop on the chaining register. -/
def State.encryptChain (E : Block → Block) (Q : List Byte) (s : State) : List Byte × State :=
  match s.cbc with
  | none => ([], s)
  | some st => ((cbcEncLoop E st (blocksOf Q)).1, { s with cbc := some (cbcEncLoop E st (blocksOf Q)).2 })

/-- Run the decryption loop on the chaining register. -/
def State.decryptChain (D : Block → Block) (C : List Byte) (s : State) : List Byte × State :=
  match s.cbc with
  | none => ([], s)
  | some st => ((cbcDecLoop D st (blocksOf C)).1, { s with cbc := some (cbcDecLoop D st (blocksOf C)).2 })

/-- `run_CBCENC` (R174): a fresh IV is drawn for every command (R177). -/
def runCbcenc : Run := fun env L s =>
  let (k, s₁) := s.readWindow env (windows .cbcenc L).key
  let (P, s₂) := s₁.readWindow env (windows .cbcenc L).source
  match s₂.drawEntropy env 16 with
  | (none, s₃) => (.error .entropyExhausted, s₃)
  | (some iv, s₃) =>
    let (C, s₄) := (s₃.startChain (blockAt iv 0)).encryptChain (env.encryptBlock s.params k) (pad P)
    (.ok (iv ++ C), s₄)

/-- The last decrypted block of ciphertext C, the one the validator judges before any write (R175). -/
def lastPlainBlock (D : Block → Block) (iv : Block) (C : List Byte) : Block :=
  let M := C.length / 16
  xorBlock (D (blockAt C (M - 1))) (if M = 1 then iv else blockAt C (M - 2))

/-- `run_CBCDEC` (R175): the padding is validated from the last block before the rest is decrypted. -/
def runCbcdec : Run := fun env L s =>
  let (k, s₁) := s.readWindow env (windows .cbcdec L).key
  let (Bl, s₂) := s₁.readWindow env (windows .cbcdec L).source
  let iv := blockAt Bl 0
  let C := Bl.drop 16
  match padCheck (lastPlainBlock (env.decryptBlock s.params k) iv C) with
  | .error e => (.error e, s₂)
  | .ok N =>
    let (P, s₃) := (s₂.startChain iv).decryptChain (env.decryptBlock s.params k) C
    (.ok (P.take (C.length - N)), s₃)

/-- CBCENC in a given environment. -/
def execCbcencWith (env : Environment) (s : State) : Host.Outcome State Fault Refusal :=
  completeLatched env .cbcenc runCbcenc s

/-- CBCDEC in a given environment. -/
def execCbcdecWith (env : Environment) (s : State) : Host.Outcome State Fault Refusal :=
  completeLatched env .cbcdec runCbcdec s

/-- CBCENC (R174). -/
def execCbcenc (s : State) : Host.Outcome State Fault Refusal := execCbcencWith Config.env s

/-- CBCDEC (R175). -/
def execCbcdec (s : State) : Host.Outcome State Fault Refusal := execCbcdecWith Config.env s

end Sys2Proof.Machine
end

