-- ==== Sys2Proof/Machine/KeyMaterial.lean ====
section
/-! DEFINITION. GENKEY (41_keymaterial R120 to R123). -/

namespace Sys2Proof.Machine

/-- `run_GENKEY` (R120): one draw of LEN bytes. -/
def runGenkey : Run := fun env L s =>
  match s.drawEntropy env L.len.toNat with
  | (none, s') => (.error .entropyExhausted, s')
  | (some r, s') => (.ok r, s')

/-- GENKEY in a given environment. -/
def execGenkeyWith (env : Environment) (s : State) : Host.Outcome State Fault Refusal :=
  completeLatched env .genkey runGenkey s

/-- GENKEY (R120). -/
def execGenkey (s : State) : Host.Outcome State Fault Refusal := execGenkeyWith Config.env s

end Sys2Proof.Machine
end

