-- ==== Sys2Proof/Machine/Rc4.lean ====
section
/-! DEFINITION. The RC4 permutation-state machine and the RC4 command (43_rc4 R140 to R152). -/

namespace Sys2Proof.Machine

/-- `S[x]`. -/
def SBox.at (S : SBox) (x : Byte) : Byte := S[x.toNat]'x.isLt

/-- Exchange `S[x]` and `S[y]`. -/
def SBox.swap (S : SBox) (x y : Byte) : SBox :=
  (S.set x.toNat (SBox.at S y) x.isLt).set y.toNat (SBox.at S x) y.isLt

/-- `S[n] = n` for n in 0..255 (R141). -/
def SBox.identity : SBox := ⟨⟨(List.range 256).map (BitVec.ofNat 8)⟩, by simp⟩

/-- Each of the 256 byte values appears exactly once in S (R149). -/
def SBox.isPermutation (S : SBox) : Prop := ∀ v : Byte, ∃ x : Byte, SBox.at S x = v ∧ ∀ y : Byte, SBox.at S y = v → y = x

/-- The KSA's start (R141; PRESUMED, assumption 13: R141 itself takes j = 0 from general knowledge). -/
def KsaState.start : KsaState := ⟨0, 0#8, SBox.identity⟩

/-- The key byte `K[n mod |K|]` (R142, |K| >= 1). -/
def keyByte (K : List Byte) (n : Nat) : Byte := K.getD (n % K.length) 0#8

/-- One KSA step (R142), taken for n < 256. -/
def ksaStep (K : List Byte) (st : KsaState) : KsaState :=
  let j' := st.j + SBox.at st.sbox (BitVec.ofNat 8 st.n) + keyByte K st.n
  ⟨st.n + 1, j', SBox.swap st.sbox (BitVec.ofNat 8 st.n) j'⟩

/-- The KSA after m steps (R142, R143). -/
def ksaRun (K : List Byte) : Nat → KsaState
  | 0 => KsaState.start
  | m + 1 => ksaStep K (ksaRun K m)

/-- `KSA(K)` (R143). -/
def ksa (K : List Byte) : SBox := (ksaRun K 256).sbox

/-- The PRGA's start: the cursors are 0 whatever the KSA's j was (R144). -/
def PrgaState.start (S : SBox) : PrgaState := ⟨0, 0#8, 0#8, S, []⟩

/-- One PRGA step on a data byte (R145). -/
def prgaStep (st : PrgaState) (p : Byte) : PrgaState :=
  let i' := st.i + 1#8
  let j' := st.j + SBox.at st.sbox i'
  let S' := SBox.swap st.sbox i' j'
  let t := SBox.at S' i' + SBox.at S' j'
  ⟨st.k + 1, i', j', S', st.out ++ [xorByte p (SBox.at S' t)]⟩

/-- The PRGA over data from a given state (R146). -/
def prgaRun (st : PrgaState) (D : List Byte) : PrgaState := D.foldl prgaStep st

/-- `PRGA(S0, D)` (R146). -/
def prga (S : SBox) (D : List Byte) : List Byte := (prgaRun (PrgaState.start S) D).out

/-- The KSA phase of the sequencer: the RC4 register file is created from the key (R140, R148). -/
def State.ksaPhase (K : List Byte) (s : State) : State := { s with rc4 := some (.ksa (ksaRun K 256)) }

/-- The PRGA phase: from the array the KSA left, over the data (R140, R144). -/
def State.prgaPhase (D : List Byte) (s : State) : State :=
  match s.rc4 with
  | some (.ksa st) => { s with rc4 := some (.prga (prgaRun (PrgaState.start st.sbox) D)) }
  | some (.prga _) => s
  | none => s

/-- The output the PRGA phase left (R140, END). -/
def State.rc4Output (s : State) : List Byte :=
  match s.rc4 with
  | some (.prga st) => st.out
  | some (.ksa _) => []
  | none => []

/-- `run_RC4` (R147). -/
def runRc4 : Run := fun env L s =>
  let (k, s₁) := s.readWindow env (windows .rc4 L).key
  let (d, s₂) := s₁.readWindow env (windows .rc4 L).source
  let s₃ := (s₂.ksaPhase k).prgaPhase d
  (.ok s₃.rc4Output, s₃)

/-- RC4 in a given environment. -/
def execRc4With (env : Environment) (s : State) : Host.Outcome State Fault Refusal :=
  completeLatched env .rc4 runRc4 s

/-- RC4 (R147). -/
def execRc4 (s : State) : Host.Outcome State Fault Refusal := execRc4With Config.env s

end Sys2Proof.Machine
end

