-- ==== Sys2Proof/Machine/Dispatch.lean ====
section
/-! DEFINITION. The meaning of a command: its completion step on the latch (40_command_framework R104, R105), one arm per command. -/

namespace Sys2Proof.Machine

def exec (i : Instr) (s : State) : Host.Outcome State Fault Refusal :=
  match i with
  | .genkey => Sys2Proof.Machine.execGenkey s
  | .xor => Sys2Proof.Machine.execXor s
  | .rc4 => Sys2Proof.Machine.execRc4 s
  | .cbcenc => Sys2Proof.Machine.execCbcenc s
  | .cbcdec => Sys2Proof.Machine.execCbcdec s

end Sys2Proof.Machine
end

