-- ==== Sys2Proof/Machine/Registers.lean ====
section
/-! DEFINITION. The register block as the host sees it (10_state R22 to R36): offsets, which accesses are supported, what a read returns and what a write does. -/

namespace Sys2Proof.Machine

/-- The offset of a register in the block (R22). -/
def regOffset : Reg → Nat
  | .id => 0x00
  | .ctrl => 0x04
  | .status => 0x08
  | .cmd => 0x0C
  | .src => 0x10
  | .len => 0x14
  | .key => 0x18
  | .klen => 0x1C
  | .dst => 0x20
  | .outlen => 0x24
  | .errinfo => 0x28
  | .blksz => 0x2C
  | .ksizes => 0x30

/-- The registers in the order of R22's table. -/
def allRegs : List Reg :=
  [.id, .ctrl, .status, .cmd, .src, .len, .key, .klen, .dst, .outlen, .errinfo, .blksz, .ksizes]

/-- The register at an offset; none at a reserved slot (R22, R24). -/
def regAt (off : Nat) : Option Reg := allRegs.find? (fun r => decide (regOffset r = off))

/-- The host-bus address of an offset (R22, R51). -/
def busAddress (p : Params) (off : Nat) : Nat := p.coreBase + off

/-- R23: an access of 32 bits, aligned, with its offset in [0x00, 0xFC]. -/
def supportedAccess (off width : Nat) : Bool :=
  decide (width = 32) && decide (off % 4 = 0) && decide (off ≤ 0xFC)

/-- The slot a bus access reaches, none when R23 does not support it. -/
def slotOf (p : Params) (addr width : Nat) : Option Nat :=
  if p.coreBase ≤ addr ∧ supportedAccess (addr - p.coreBase) width = true then some (addr - p.coreBase) else none

/-- What a host read of a register returns; it has no effect (R22 to R35, R56). -/
def State.readReg (s : State) : Reg → Word
  | .id => 0x45524F43#32
  | .ctrl => 0#31 ++ BitVec.ofBool s.ie
  | .status => s.statusWord
  | .cmd => 0#32
  | .src => s.src
  | .len => s.len
  | .key => s.key
  | .klen => s.klen
  | .dst => s.dst
  | .outlen => s.outlen
  | .errinfo => 0#24 ++ s.cause
  | .blksz => 16#32
  | .ksizes => s.params.ksizesVal

/-- A host write to CMD: an issue when IDLE (R102), ignored but for OVR when BUSY (R103). -/
def State.writeCmd (v : Word) (s : State) : State := if s.busy then { s with ovr := true } else s.issue v

/-- What a host write of a register does (R24, R26, R28 to R32). -/
def State.writeReg (v : Word) (s : State) : Reg → State
  | .id => s
  | .ctrl => { s with ie := v.getLsbD 0 }
  | .status => s.acknowledge v
  | .cmd => s.writeCmd v
  | .src => { s with src := v }
  | .len => { s with len := v }
  | .key => { s with key := v }
  | .klen => { s with klen := v }
  | .dst => { s with dst := v }
  | .outlen => s
  | .errinfo => s
  | .blksz => s
  | .ksizes => s

/-- A read of a slot: a reserved slot reads 0 (R24). -/
def State.readSlot (off : Nat) (s : State) : Word :=
  match regAt off with
  | some r => s.readReg r
  | none => 0#32

/-- A write of a slot: a reserved slot ignores it (R24). -/
def State.writeSlot (off : Nat) (v : Word) (s : State) : State :=
  match regAt off with
  | some r => s.writeReg v r
  | none => s

end Sys2Proof.Machine
end

