-- ==== Sys2Proof/Machine/HostSide.lean ====
section
/-! DEFINITION. One step of the host: the next bus access or DMEM access of its program (30_encoding R76; 20_memory R50, R59, R64; 60_exceptions R216, R217). -/

namespace Sys2Proof.Machine

/-- The windows of the running command, none when IDLE (R64). -/
def State.ownedWindows (s : State) : Windows :=
  match s.latch with
  | some L => if s.busy then latchedWindows L else Windows.none
  | none => Windows.none

/-- The statement at the head is done; the others are left. -/
def State.advance (rest : List HostStmt) (s : State) : State := { s with inputs := rest }

/-- Record what a read returned. -/
def State.report (r : HostResult) (s : State) : State := { s with results := r :: s.results }

/-- A host register read (R23, R76). -/
def hostBusRead (addr width : Nat) (rest : List HostStmt) (s : State) :
    Host.Outcome State Fault Refusal :=
  match slotOf s.params addr width with
  | none => .refused .unsupportedRegisterAccess
  | some off => .next ((s.report (.word (s.readSlot off))).advance rest)

/-- A host register write (R23, R76). -/
def hostBusWrite (addr width : Nat) (v : Word) (rest : List HostStmt) (s : State) :
    Host.Outcome State Fault Refusal :=
  match slotOf s.params addr width with
  | none => .refused .unsupportedRegisterAccess
  | some off => .next ((s.writeSlot off v).advance rest)

/-- One STATUS read of a `wait`: it ends at the read that shows BUSY = 0 (R76, R241). A poll that shows BUSY = 1 leaves
the statement at the head and no result (DESIGN CHOICE, assumption 12). -/
def hostWait (rest : List HostStmt) (s : State) : Host.Outcome State Fault Refusal :=
  if s.busy then .next s else .next ((s.report (.word s.statusWord)).advance rest)

/-- A host byte read of DMEM (R50; an absent address faults: DESIGN CHOICE, assumption 11). A byte of a running command's
destination window reads as any value (R64 (a)). -/
def hostMemRead (env : Environment) (a : Nat) (rest : List HostStmt) (s : State) : Host.Outcome State Fault Refusal :=
  if s.params.memSize ≤ a then .fault .hostAddressAbsent
  else if s.ownedWindows.dest.covers a then
    .next (({ s with freeDraws := s.freeDraws + 1 }.report (.byte (env.freeByte s.freeDraws))).advance rest)
  else .next ((s.report (.byte (Memory.read env s.dmem a))).advance rest)

/-- The byte lies in a window of the running command (R64 (b)). -/
def State.owns (s : State) (a : Nat) : Bool :=
  s.ownedWindows.source.covers a || s.ownedWindows.key.covers a || s.ownedWindows.dest.covers a

/-- The effect of a host byte write: the byte is stored, and in a window of the running command the write is a race (R64
(b), R217; DESIGN CHOICE, assumption 7). -/
def State.hostStore (a : Nat) (b : Byte) (s : State) : State :=
  { s with
    dmem := Memory.write s.dmem a b
    raceMark := s.raceMark || s.owns a
    raced := s.raced || s.owns a }

/-- What is left of a `mem` statement after its first byte: one DMEM byte write per byte (R76). -/
def memLeft (a : Nat) (bs : List Byte) (rest : List HostStmt) : List HostStmt :=
  match bs with
  | [] => rest
  | b :: bs => .memWrite (a + 1) (b :: bs) :: rest

/-- The next byte write of a `mem` statement (R50, R76). -/
def hostMemWrite (a : Nat) (bs : List Byte) (rest : List HostStmt) (s : State) :
    Host.Outcome State Fault Refusal :=
  match bs with
  | [] => .next (s.advance rest)
  | b :: bs =>
    if s.params.memSize ≤ a then .fault .hostAddressAbsent
    else .next ((s.hostStore a b).advance (memLeft a bs rest))

/-- One step of the host. With no statement left the host does nothing (R233, R241; DESIGN CHOICE,
assumption 15). -/
def hostStep (env : Environment) (s : State) : Host.Outcome State Fault Refusal :=
  match s.inputs with
  | [] => .next s
  | .busRead addr width :: rest => hostBusRead addr width rest s
  | .busWrite addr width v :: rest => hostBusWrite addr width v rest s
  | .wait :: rest => hostWait rest s
  | .memRead a :: rest => hostMemRead env a rest s
  | .memWrite a bs :: rest => hostMemWrite a bs rest s

end Sys2Proof.Machine
end

