-- ==== Sys2Proof/Machine/Sequencer.lean ====
section
/-! DEFINITION. Whose step comes next, and the three kinds of step (10_state R20; 20_memory R59; 40_command_framework R104; 70 R230). -/

namespace Sys2Proof.Machine

/-- Whose step comes next. A turn names an agent; an agent with no enabled step lets the other one move, and with no turn
left a BUSY core completes (R104: it is eventually taken; DESIGN CHOICE, assumption 1). -/
def State.nextAgent (s : State) : Turn :=
  match s.turns with
  | .reset :: _ => .reset
  | .host :: _ => if s.busy && s.inputs.isEmpty then .core else .host
  | .core :: _ => if s.busy then .core else .host
  | [] => if s.busy then .core else .host

/-- The turn is taken. -/
def State.popTurn (s : State) : State := { s with turns := s.turns.tail }

/-- The core's one step, the completion of the latched word: an illegal word completes with ERR_ILLEGAL, a command runs
its meaning (R74, R104, R105). -/
def coreStep (run : Instr → State → Host.Outcome State Fault Refusal) (s : State) : Host.Outcome State Fault Refusal :=
  match s.latch with
  | none => .fault .noCommandLatched
  | some L =>
    match decode L.cmd with
    | .ok i => run i s
    | .error e => .next (s.failWith (illegalWordError e))

/-- One step of the machine, given the meaning of the commands. -/
def stepWith (env : Environment) (run : Instr → State → Host.Outcome State Fault Refusal) (s : State) :
    Host.Outcome State Fault Refusal :=
  match s.nextAgent with
  | .reset => .next (s.popTurn.resetInput env)
  | .core => coreStep run s.popTurn
  | .host => hostStep env s.popTurn

/-- The five meanings in a given environment. -/
def execWith (env : Environment) (i : Instr) (s : State) : Host.Outcome State Fault Refusal :=
  match i with
  | .genkey => execGenkeyWith env s
  | .xor => execXorWith env s
  | .rc4 => execRc4With env s
  | .cbcenc => execCbcencWith env s
  | .cbcdec => execCbcdecWith env s

/-- A command word stands issued and the core moves next: what the fetch of a word is on this machine (DESIGN CHOICE, assumption 14). -/
def State.placeWord (nbits w : Nat) (s : State) : State :=
  { s.issue (BitVec.ofNat 32 (w % 2 ^ nbits)) with turns := .core :: s.turns }

end Sys2Proof.Machine
end

