-- ==== Sys2Proof/Machine/Step.lean ====
section
/-! DEFINITION. The step of the machine in its environment, and the placing of a command word where the next step runs it. -/

namespace Sys2Proof.Machine

/-- One atomic step: the host's, the core's or the reset's (R59). -/
def step (s : State) : Host.Outcome State Fault Refusal := stepWith Config.env exec s

/-- The state in which the very next step completes the word (DESIGN CHOICE, assumption 14). -/
def State.withFetchWord (s : State) (nbits w : Nat) : State := s.placeWord nbits w

end Sys2Proof.Machine
end

