-- ==== Sys2Proof/Machine/HostProgram.lean ====
section
/-! DEFINITION. The host assembler: what each statement and pseudo-instruction stands for (30_encoding R76 to R78). -/

namespace Sys2Proof.Machine

/-- `wr REG, v` (R76). -/
def asmWr (p : Params) (r : Reg) (v : Word) : HostStmt := .busWrite (busAddress p (regOffset r)) 32 v

/-- `rd REG` (R76). -/
def asmRd (p : Params) (r : Reg) : HostStmt := .busRead (busAddress p (regOffset r)) 32

/-- `mem a, b0 b1 ...` (R76). -/
def asmMem (a : Nat) (bs : List Byte) : HostStmt := .memWrite a bs

/-- `cmd w` (R77). -/
def asmCmd (p : Params) (w : Word) : HostStmt := asmWr p .cmd w

/-- `genkey`, `xor`, `rc4`, `cbcenc`, `cbcdec` (R77). -/
def asmIssue (p : Params) (i : Instr) : HostStmt := asmCmd p (encode i)

/-- `GENKEY dst, len` (R78). -/
def asmGenkey (p : Params) (dst len : Word) : List HostStmt :=
  [asmWr p .dst dst, asmWr p .len len, asmIssue p .genkey, .wait]

/-- `XOR`, `RC4`, `CBCENC` and `CBCDEC` with their five operands (R78). -/
def asmTransform (p : Params) (i : Instr) (dst src len key klen : Word) : List HostStmt :=
  [asmWr p .src src, asmWr p .len len, asmWr p .key key, asmWr p .klen klen, asmWr p .dst dst,
    asmIssue p i, .wait]

/-- `ACK`: clears DONE and OVR (R78). -/
def asmAck (p : Params) : HostStmt := asmWr p .status 0x00000006#32

end Sys2Proof.Machine
end

