-- ==== Sys2Proof/Safety.lean ====
section
/-! DEFINITION. What a good run is (70 R241, 60 R217) and the invariant of the machine's states (10_state R27, R33, R39; 40 R100, R102, R110; 60 R200, R201; 20_memory R50). -/

namespace Sys2Proof.Machine

/-- The race mark is clear (R217, R241). -/
def State.good (s : State) : Bool := !s.raceMark

/-- The host program has ended (R241). -/
def State.ended (s : State) : Bool := s.inputs.isEmpty

/-- The pairs of ERR and CAUSE a completion may leave: success, or a row of R201. -/
def reportablePair (err : BitVec 4) (cause : BitVec 8) : Prop :=
  (err = 0#4 ∧ cause = 0#8) ∨ ∃ e : CmdError, err = e.code ∧ cause = e.cause

/-- What holds between any two steps. -/
structure State.Inv (s : State) : Prop where
  /-- BUSY says that a command is latched (R33, R100). -/
  busy_iff_latched : s.busy = s.latch.isSome
  /-- BUSY and DONE are never both 1 (R27). -/
  not_busy_and_done : ¬(s.busy = true ∧ s.done = true)
  /-- While BUSY the result registers read 0 (R27, R31, R32, R236). -/
  busy_results_clear : s.busy = true → s.err = 0#4 ∧ s.cause = 0#8 ∧ s.outlen = 0#32
  /-- ERR and CAUSE are a pair of R201. -/
  pair_reportable : reportablePair s.err s.cause
  /-- After an error nothing was written (R31, R110). -/
  error_wrote_nothing : s.err ≠ 0#4 → s.outlen = 0#32
  /-- Hidden cipher state is absent between steps (R39, R111). -/
  hidden_absent : s.rc4 = none ∧ s.cbc = none
  /-- Only a running command has raced, and then the mark is set (R217). -/
  raced_marked : s.raced = true → s.busy = true ∧ s.raceMark = true
  /-- DMEM is in canonical form. -/
  dmem_wf : Memory.wf s.dmem = true
  /-- DMEM lists no address at or above MEM_SIZE (R50). -/
  dmem_inside : Memory.inside s.params s.dmem = true

end Sys2Proof.Machine
end

