-- ==== Sys2Proof/WellFormed.lean ====
section
/-! DEFINITION. The checks on syntax: a command has no operand, so every command is well formed (30_encoding R70, R72); a command word is well formed when its reserved bits are 0 and its opcode is in the opcode map (R70, R71). -/

namespace Sys2Proof

/-- Every command is well formed: it has no register number, no immediate and no mode bit (R70). -/
def Instr.wellFormed : Instr → Bool
  | .genkey => true
  | .xor => true
  | .rc4 => true
  | .cbcenc => true
  | .cbcdec => true

/-- `RSVD = 0` (R70). -/
def reservedBitsZero (w : Word) : Bool := w.extractLsb' 8 24 == 0#24

/-- `OP` is one of the five opcodes (R71). -/
def opcodeInMap (w : Word) : Bool := decide (1 ≤ (w.extractLsb' 0 8).toNat) && decide ((w.extractLsb' 0 8).toNat ≤ 5)

/-- A word that names a command (R70, R71, R74). -/
def commandWordWellFormed (w : Word) : Bool := reservedBitsZero w && opcodeInMap w

end Sys2Proof
end

