-- ==== Sys2Proof/Certificates/Slice0/Obligations.lean ====
section
/-! DEFINITION. The statements about the CORE, taken from the numbered rules of the spec. OBLIGATIONS.json lists them.
Whose step comes next is the model's schedule `State.turns` (log 1): the hypotheses `coreMoves` and `hostMoves` say that it
is the core's or the host's, and nothing else rests on it. `raced`, `entropyAnswers`, `entropyDraws` and `freeDraws` are
the model's own fields (log 4, 5, 7). -/

open Sys2Proof Sys2Proof.Machine

namespace Sys2Proof.Claims

/-- The byte the core reads at a DMEM address. -/
def byteAt (s : State) (a : Nat) : Byte := Memory.read Config.env s.dmem a

/-- The n bytes from address a, index 0 first (R10 `MemRead`). -/
def bytesAt (s : State) (a n : Nat) : List Byte := (List.range n).map (fun k => byteAt s (a + k))

/-- The window (a, n) is in range (R107). -/
abbrev fits (s : State) (a n : Nat) : Prop := n = 0 ∨ a + n ≤ s.params.memSize

/-- The windows (a, n) and (b, m) do not overlap (R108). -/
abbrev apart (a n b m : Nat) : Prop := ¬(0 < n ∧ 0 < m ∧ a < b + m ∧ b < a + n)

/-- The state after a completion, but for DMEM and the draws: result code, cause and length recorded, BUSY 0, DONE 1, the
latch and all hidden state gone (R109, R110, R111). -/
def completed (s : State) (err : BitVec 4) (cause : BitVec 8) (outlen : Word) : State :=
  { s with
    busy := false, done := true, err := err, cause := cause, outlen := outlen
    latch := none, rc4 := none, cbc := none, raced := false }

/-- The state after one entropy draw. -/
def drawn (s : State) : State :=
  { s with entropyAnswers := s.entropyAnswers.tail, entropyDraws := s.entropyDraws + 1 }

/-- The next step is the completion step (R104). -/
abbrev coreMoves (s : State) : Prop :=
  s.busy = true ∧ (s.turns.head? = none ∨ s.turns.head? = some .core ∨ (s.turns.head? = some .host ∧ s.inputs = []))

/-- The next step is the host's, if it has a statement left. -/
abbrev hostMoves (s : State) : Prop :=
  s.turns.head? = some .host ∨ (s.busy = false ∧ s.turns.head? ≠ some .reset)

/-- The turn is taken and the host's statement done; nothing else. -/
def performed (s : State) (rest : List HostStmt) : State := { s with turns := s.turns.tail, inputs := rest }

/-- The next statement is a 32-bit write of v at offset off of the register block, and it is the host's turn. -/
def writesAt (s : State) (off : Nat) (v : Word) (rest : List HostStmt) : Prop :=
  hostMoves s ∧ s.inputs = .busWrite (s.params.coreBase + off) 32 v :: rest

/-- What R22's table says a read at an offset returns, field by field. -/
def registerValue (s : State) (off : Nat) : Word :=
  if off = 0x00 then 0x45524F43#32
  else if off = 0x04 then BitVec.ofNat 32 s.ie.toNat
  else if off = 0x08 then BitVec.ofNat 32 (s.busy.toNat + 2 * s.done.toNat + 4 * s.ovr.toNat + 16 * s.err.toNat)
  else if off = 0x10 then s.src
  else if off = 0x14 then s.len
  else if off = 0x18 then s.key
  else if off = 0x1C then s.klen
  else if off = 0x20 then s.dst
  else if off = 0x24 then s.outlen
  else if off = 0x28 then BitVec.ofNat 32 s.cause.toNat
  else if off = 0x2C then 16#32
  else if off = 0x30 then s.params.keySizeMask
  else 0#32

/-- `k in KEY_SIZES`, by the mask KSIZES shows (R35). -/
abbrev accepted (s : State) (k : Nat) : Prop := 1 ≤ k ∧ k ≤ 32 ∧ s.params.keySizeMask.getLsbD (k - 1) = true

/-- The destination window length of R106. -/
def destLength (i : Instr) (L : Latch) : Nat :=
  match i with
  | .genkey => L.len.toNat
  | .xor => L.len.toNat
  | .rc4 => L.len.toNat
  | .cbcenc => 16 + 16 * (L.len.toNat / 16 + 1)
  | .cbcdec => L.len.toNat - 17

/-- The address lies in the source or the key window of the command (R106: GENKEY has neither). -/
def inInput (i : Instr) (L : Latch) (a : Nat) : Prop :=
  i ≠ .genkey ∧ ((L.src.toNat ≤ a ∧ a < L.src.toNat + L.len.toNat) ∨ (L.key.toNat ≤ a ∧ a < L.key.toNat + L.klen.toNat))

/-- The address lies in the destination window of the command. -/
def inDest (i : Instr) (L : Latch) (a : Nat) : Prop := L.dst.toNat ≤ a ∧ a < L.dst.toNat + destLength i L

/-- A command is running and its destination window holds the address. -/
def runningDest (s : State) (a : Nat) : Prop :=
  s.busy = true ∧ ∃ L i, s.latch = some L ∧ decode L.cmd = .ok i ∧ inDest i L a

/-- A command is running and one of its windows holds the address (R64). -/
def runningWindow (s : State) (a : Nat) : Prop :=
  s.busy = true ∧ ∃ L i, s.latch = some L ∧ decode L.cmd = .ok i ∧ (inInput i L a ∨ inDest i L a)

/-- The preconditions, format, range and overlap checks of R105 in the spec's order, as (ERR, CAUSE). -/
def firstError (s : State) (op : Instr) (L : Latch) : Option (BitVec 4 × BitVec 8) :=
  if op = .xor ∧ L.klen ≠ L.len then some (2#4, 1#8)
  else if op = .rc4 ∧ L.klen = 0#32 then some (2#4, 2#8)
  else if (op = .cbcenc ∨ op = .cbcdec) ∧ ¬accepted s L.klen.toNat then some (2#4, 3#8)
  else if op = .cbcdec ∧ L.len.toNat < 32 then some (3#4, 1#8)
  else if op = .cbcdec ∧ L.len.toNat % 16 ≠ 0 then some (3#4, 2#8)
  else if op ≠ .genkey ∧ ¬fits s L.src.toNat L.len.toNat then some (6#4, 1#8)
  else if op ≠ .genkey ∧ ¬fits s L.key.toNat L.klen.toNat then some (6#4, 2#8)
  else if ¬fits s L.dst.toNat (destLength op L) then some (6#4, 3#8)
  else if op ≠ .genkey ∧
      (¬apart L.dst.toNat (destLength op L) L.key.toNat L.klen.toNat ∨
        (¬apart L.dst.toNat (destLength op L) L.src.toNat L.len.toNat ∧
          ¬((op = .xor ∨ op = .rc4) ∧ L.dst = L.src))) then some (2#4, 4#8)
  else none

/-- The (ERR, CAUSE) pairs a command can complete with, R202. -/
def possibleErrors : Instr → List (BitVec 4 × BitVec 8)
  | .genkey => [(6#4, 3#8), (5#4, 1#8)]
  | .xor => [(2#4, 1#8), (2#4, 4#8), (6#4, 1#8), (6#4, 2#8), (6#4, 3#8)]
  | .rc4 => [(2#4, 2#8), (2#4, 4#8), (6#4, 1#8), (6#4, 2#8), (6#4, 3#8)]
  | .cbcenc => [(2#4, 3#8), (2#4, 4#8), (6#4, 1#8), (6#4, 2#8), (6#4, 3#8), (5#4, 1#8)]
  | .cbcdec => [(2#4, 3#8), (2#4, 4#8), (3#4, 1#8), (3#4, 2#8), (6#4, 1#8), (6#4, 2#8), (6#4, 3#8), (4#4, 1#8), (4#4, 2#8)]

/-- The operands of a command that reads two inputs pass its range and overlap checks, in place allowed for XOR and RC4. -/
def streamOperandsFit (s : State) (L : Latch) : Prop :=
  fits s L.src.toNat L.len.toNat ∧ fits s L.key.toNat L.klen.toNat ∧ fits s L.dst.toNat L.len.toNat ∧
  apart L.dst.toNat L.len.toNat L.key.toNat L.klen.toNat ∧
  (L.dst = L.src ∨ apart L.dst.toNat L.len.toNat L.src.toNat L.len.toNat)

/-- The operands of a CBC command pass its key-size, range and overlap checks, the destination window having n bytes. -/
def blockOperandsFit (s : State) (L : Latch) (n : Nat) : Prop :=
  accepted s L.klen.toNat ∧
  fits s L.src.toNat L.len.toNat ∧ fits s L.key.toNat L.klen.toNat ∧ fits s L.dst.toNat n ∧
  apart L.dst.toNat n L.key.toNat L.klen.toNat ∧ apart L.dst.toNat n L.src.toNat L.len.toNat

end Sys2Proof.Claims

open Sys2Proof.Claims

/-! ## Encoding -/

/-- The five words of R71's opcode map, written out, decode to their commands. -/
def Obligations.OpcodeMapWordsDecode : Prop :=
  decode 0x00000001#32 = .ok .genkey ∧ decode 0x00000002#32 = .ok .xor ∧ decode 0x00000003#32 = .ok .rc4 ∧
  decode 0x00000004#32 = .ok .cbcenc ∧ decode 0x00000005#32 = .ok .cbcdec

/-- R71: a word selects a command only when it equals the match value exactly. -/
def Obligations.DecodeSelectsExactlyTheOpcodeMap : Prop :=
  ∀ (w : Word) (i : Instr), decode w = .ok i ↔
    (i = .genkey ∧ w = 0x00000001#32) ∨ (i = .xor ∧ w = 0x00000002#32) ∨ (i = .rc4 ∧ w = 0x00000003#32) ∨
    (i = .cbcenc ∧ w = 0x00000004#32) ∨ (i = .cbcdec ∧ w = 0x00000005#32)

/-- Every well-formed command decodes from its encoding, and a word is the encoding of the command it decodes to; the
well-formed words are exactly the encodings. -/
def Obligations.DecodeInvertsEncode : Prop :=
  (∀ i : Instr, i.wellFormed = true → decode (encode i) = .ok i) ∧
  (∀ (w : Word) (i : Instr), decode w = .ok i → encode i = w) ∧
  (∀ w : Word, commandWordWellFormed w = true ↔ ∃ i : Instr, encode i = w)

/-! ## The step -/

/-- The completion step of a latched word that decodes to a command is the meaning of that command (R104, R105). -/
def Obligations.StepCompletesTheLatchedCommand : Prop :=
  ∀ (s : State) (L : Latch) (i : Instr), coreMoves s → s.latch = some L → decode L.cmd = .ok i →
    step s = exec i { s with turns := s.turns.tail }

/-- R74: an illegal word completes with ERR_ILLEGAL, CAUSE 2 when RSVD != 0 and otherwise CAUSE 1, and changes nothing
but STATUS, ERRINFO and OUTLEN. -/
def Obligations.IllegalWordCompletesWithErrIllegal : Prop :=
  ∀ (s : State) (L : Latch), coreMoves s → s.latch = some L → (∀ i : Instr, L.cmd ≠ encode i) →
    step s = .next { completed s 1#4 (if L.cmd.toNat / 256 ≠ 0 then 2#8 else 1#8) 0#32 with turns := s.turns.tail }

/-- R230: the effect of reset, in one step. Which free byte a byte of the cut window takes is the model's numbering (log 5,
log 9); that the host's program and its results stay is the model's choice (log 18). -/
def Obligations.ResetStepSetsTheResetValues : Prop :=
  ∀ s : State, s.turns.head? = some .reset → ∃ t, step s = .next t ∧
    t.ie = false ∧ t.busy = false ∧ t.done = false ∧ t.ovr = false ∧ t.err = 0#4 ∧
    t.src = 0#32 ∧ t.len = 0#32 ∧ t.key = 0#32 ∧ t.klen = 0#32 ∧ t.dst = 0#32 ∧ t.outlen = 0#32 ∧ t.cause = 0#8 ∧
    t.latch = none ∧ t.rc4 = none ∧ t.cbc = none ∧ t.irq = false ∧
    t.readReg .id = 0x45524F43#32 ∧ t.readReg .blksz = 16#32 ∧ t.readReg .ksizes = s.readReg .ksizes ∧
    t.readReg .cmd = 0#32 ∧
    t.raceMark = s.raceMark ∧ t.params = s.params ∧ t.inputs = s.inputs ∧ t.results = s.results ∧
    (∀ a, (∀ L i, s.latch = some L → decode L.cmd = .ok i → ¬inDest i L a) → byteAt t a = byteAt s a) ∧
    (∀ L i a, s.latch = some L → decode L.cmd = .ok i → inDest i L a → a < s.params.memSize →
      byteAt t a = Config.env.freeByte (s.freeDraws + (a - L.dst.toNat)))

/-- R233: an IDLE core with no host access does nothing by itself. -/
def Obligations.IdleCoreDoesNothing : Prop :=
  ∀ s : State, s.busy = false → s.inputs = [] → s.turns.head? ≠ some .reset →
    step s = .next { s with turns := s.turns.tail }

/-! ## The register block -/

/-- R22's reset column, R230 (KSIZES by the free parameters, log 2): what every slot of the block reads right after reset. -/
def Obligations.ResetRegistersRead : Prop :=
  State.reset.readSlot 0x00 = 0x45524F43#32 ∧ State.reset.readSlot 0x04 = 0#32 ∧ State.reset.readSlot 0x08 = 0#32 ∧
  State.reset.readSlot 0x0C = 0#32 ∧ State.reset.readSlot 0x10 = 0#32 ∧ State.reset.readSlot 0x14 = 0#32 ∧
  State.reset.readSlot 0x18 = 0#32 ∧ State.reset.readSlot 0x1C = 0#32 ∧ State.reset.readSlot 0x20 = 0#32 ∧
  State.reset.readSlot 0x24 = 0#32 ∧ State.reset.readSlot 0x28 = 0#32 ∧ State.reset.readSlot 0x2C = 0x10#32 ∧
  State.reset.readSlot 0x30 = Config.params.ksizesVal ∧ (∀ off, 0x34 ≤ off → State.reset.readSlot off = 0#32) ∧
  State.reset.irq = false ∧ State.reset.latch = none ∧ State.reset.rc4 = none ∧ State.reset.cbc = none

/-- R22, R23: an aligned 32-bit read inside the block returns the register's current value and changes nothing else. -/
def Obligations.HostReadReturnsTheRegisterValue : Prop :=
  ∀ (s : State) (off : Nat) (rest : List HostStmt), hostMoves s →
    s.inputs = .busRead (s.params.coreBase + off) 32 :: rest → off % 4 = 0 → off ≤ 0xFC →
    step s = .next { performed s rest with results := .word (registerValue s off) :: s.results }

/-- R23, R216: an access of another width, misaligned, or outside the block is refused. -/
def Obligations.UnsupportedRegisterAccessIsRefused : Prop :=
  ∀ (s : State) (addr width : Nat) (v : Word) (rest : List HostStmt), hostMoves s →
    (s.inputs = .busRead addr width :: rest ∨ s.inputs = .busWrite addr width v :: rest) →
    (width ≠ 32 ∨ addr < s.params.coreBase ∨ (addr - s.params.coreBase) % 4 ≠ 0 ∨ s.params.coreBase + 0xFC < addr) →
    step s = .refused .unsupportedRegisterAccess

/-- R24: reserved slots read 0 and ignore writes, reserved bits read 0 and ignore the written value, read-only registers
ignore writes, and the reserved bits of CMD are decoded. -/
def Obligations.ReservedAndReadOnlyIgnoreWrites : Prop :=
  (∀ (s : State) (off : Nat) (v : Word) (rest : List HostStmt), writesAt s off v rest →
    (off = 0x00 ∨ off = 0x24 ∨ off = 0x28 ∨ off = 0x2C ∨ off = 0x30 ∨ (0x34 ≤ off ∧ off ≤ 0xFC ∧ off % 4 = 0)) →
    step s = .next (performed s rest)) ∧
  (∀ (s : State) (off : Nat), 0x34 ≤ off → off ≤ 0xFC → s.readSlot off = 0#32) ∧
  (∀ (s : State) (n : Nat), 1 ≤ n → (s.readSlot 0x04).getLsbD n = false) ∧
  (∀ (s : State) (n : Nat), (n = 3 ∨ 8 ≤ n) → (s.readSlot 0x08).getLsbD n = false) ∧
  (∀ (s : State) (n : Nat), 8 ≤ n → (s.readSlot 0x28).getLsbD n = false) ∧
  (∀ (s : State) (v w : Word), v.getLsbD 0 = w.getLsbD 0 → s.writeSlot 0x04 v = s.writeSlot 0x04 w) ∧
  (∀ (s : State) (v w : Word), v.getLsbD 1 = w.getLsbD 1 → v.getLsbD 2 = w.getLsbD 2 →
    s.writeSlot 0x08 v = s.writeSlot 0x08 w) ∧
  (∀ w : Word, 256 ≤ w.toNat → decode w = .error .reservedBits)

/-- R26: a write to CTRL takes bit 0 as IE at once, in any sequencer state, and has no other effect; IE lets DONE drive
IRQ, IE = 0 holds it low, and IE is 0 after reset. -/
def Obligations.CtrlWriteSetsInterruptEnable : Prop :=
  (∀ (s : State) (v : Word) (rest : List HostStmt), writesAt s 0x04 v rest →
    ∃ t, step s = .next t ∧ t = { performed s rest with ie := v.getLsbD 0 } ∧
      t.readReg .ctrl = v &&& 1#32 ∧ t.irq = if v.getLsbD 0 = true then s.done else false) ∧
  State.reset.ie = false

/-- R28: STATUS bits 1 and 2 are write-one-to-clear, every other bit is ignored, BUSY or not (while BUSY, DONE is 0
already). -/
def Obligations.StatusWriteClearsDoneAndOvr : Prop :=
  (∀ (s : State) (v : Word) (rest : List HostStmt), writesAt s 0x08 v rest →
    step s = .next { performed s rest with
      done := if v.getLsbD 1 = true then false else s.done
      ovr := if v.getLsbD 2 = true then false else s.ovr }) ∧
  (∀ s : State, s.Inv → s.busy = true → s.done = false)

/-- R30, R235: a parameter register takes the written value whole, BUSY or not, reads back as written, and no running
command sees it. -/
def Obligations.ParameterWritesReadBack : Prop :=
  ∀ (s : State) (v : Word) (rest : List HostStmt),
    (writesAt s 0x10 v rest → step s = .next { performed s rest with src := v }) ∧
    (writesAt s 0x14 v rest → step s = .next { performed s rest with len := v }) ∧
    (writesAt s 0x18 v rest → step s = .next { performed s rest with key := v }) ∧
    (writesAt s 0x1C v rest → step s = .next { performed s rest with klen := v }) ∧
    (writesAt s 0x20 v rest → step s = .next { performed s rest with dst := v }) ∧
    (∀ off ∈ [0x10, 0x14, 0x18, 0x1C, 0x20], (s.writeSlot off v).readSlot off = v)

/-- R102: the effect of an issue, in one step; IRQ falls. -/
def Obligations.IssueLatchesAndGoesBusy : Prop :=
  ∀ (s : State) (w : Word) (rest : List HostStmt), writesAt s 0x0C w rest → s.busy = false →
    ∃ t, step s = .next t ∧ t.irq = false ∧
      t = { performed s rest with
        latch := some ⟨w, s.src, s.len, s.key, s.klen, s.dst⟩
        busy := true, done := false, err := 0#4, cause := 0#8, outlen := 0#32, raced := t.raced }

/-- R103: a CMD write while BUSY is ignored but for OVR. -/
def Obligations.CmdWriteWhileBusyOnlySetsOvr : Prop :=
  ∀ (s : State) (w : Word) (rest : List HostStmt), writesAt s 0x0C w rest → s.busy = true →
    step s = .next { performed s rest with ovr := true }

/-- R34, R35: BLKSZ reads 16; bit k-1 of KSIZES says that k is an accepted key size, and no size outside 1..32 is. -/
def Obligations.SizeRegistersTellBlockAndKeySizes : Prop :=
  ∀ s : State, s.readReg .blksz = 16#32 ∧
    (∀ k, 1 ≤ k → k ≤ 32 → ((s.readReg .ksizes).getLsbD (k - 1) = true ↔ s.params.acceptsKey k = true)) ∧
    (∀ k, s.params.acceptsKey k = true → 1 ≤ k ∧ k ≤ 32)

/-- R36, R206: IRQ is IE AND DONE, low after reset; every completion raises it when enabled, an issue and an
acknowledge lower it, and OVR does not drive it. -/
def Obligations.IrqFollowsEnableAndDone : Prop :=
  (∀ s : State, s.irq = (s.ie && s.done)) ∧
  State.reset.irq = false ∧
  (∀ (i : Instr) (s t : State), exec i s = .next t → t.irq = s.ie) ∧
  (∀ (w : Word) (s : State), (s.issue w).irq = false) ∧
  (∀ (v : Word) (s : State), v.getLsbD 1 = true → (s.acknowledge v).irq = false) ∧
  (∀ (s : State) (b : Bool), { s with ovr := b }.irq = s.irq)

/-! ## The lifecycle of a command -/

/-- R100: IDLE to BUSY only by an issue, BUSY to IDLE only by a completion (or the reset of R230). -/
def Obligations.BusyChangesOnlyByIssueAndCompletion : Prop :=
  (∀ s t : State, step s = .next t →
    (s.busy = false → t.busy = true → ∃ w rest, writesAt s 0x0C w rest) ∧
    (s.busy = true → t.busy = false → coreMoves s ∨ s.turns.head? = some .reset)) ∧
  State.reset.busy = false

/-- R27: DONE is set only by a completion and cleared only by a 1 written to STATUS bit 1 or by an issue, OVR is set only
by a CMD write while BUSY and cleared only by a 1 written to STATUS bit 2 (or the reset of R230), and the race mark is set
only by a host write to a window of the running command (R217). -/
def Obligations.StatusBitsChangeOnlyByTheirEvents : Prop :=
  ∀ s t : State, step s = .next t →
    (s.done = false → t.done = true → coreMoves s) ∧
    (s.done = true → t.done = false → (∃ v rest, writesAt s 0x08 v rest ∧ v.getLsbD 1 = true) ∨
      (s.busy = false ∧ ∃ w rest, writesAt s 0x0C w rest) ∨ s.turns.head? = some .reset) ∧
    (s.ovr = false → t.ovr = true → s.busy = true ∧ ∃ w rest, writesAt s 0x0C w rest) ∧
    (s.ovr = true → t.ovr = false → (∃ v rest, writesAt s 0x08 v rest ∧ v.getLsbD 2 = true) ∨
      s.turns.head? = some .reset) ∧
    (s.raceMark = false → t.raceMark = true →
      hostMoves s ∧ ∃ a b bs rest, s.inputs = .memWrite a (b :: bs) :: rest ∧ runningWindow s a)

/-- R31, R32, R208: ERR, CAUSE and OUTLEN keep the values of a completion until the next issue (or the reset of R230). -/
def Obligations.ResultRegistersChangeOnlyByIssueAndCompletion : Prop :=
  ∀ s t : State, step s = .next t → (t.err ≠ s.err ∨ t.cause ≠ s.cause ∨ t.outlen ≠ s.outlen) →
    coreMoves s ∨ (s.busy = false ∧ ∃ w rest, writesAt s 0x0C w rest) ∨ s.turns.head? = some .reset

/-- DMEM changes only by a host byte write, a successful completion, or the reset of a running command. -/
def Obligations.DmemChangesOnlyByItsWriters : Prop :=
  ∀ (s t : State) (a : Nat), step s = .next t → byteAt t a ≠ byteAt s a →
    (∃ b bs rest, hostMoves s ∧ s.inputs = .memWrite a (b :: bs) :: rest) ∨
    (coreMoves s ∧ t.err = 0#4 ∧ ∃ L i, s.latch = some L ∧ decode L.cmd = .ok i ∧ inDest i L a) ∨
    (s.turns.head? = some .reset ∧ ∃ L i, s.latch = some L ∧ decode L.cmd = .ok i ∧ inDest i L a)

/-- The parameters of R5, held in the state (log 2), are fixed, and the race mark is never cleared (R217). -/
def Obligations.ParametersFixedAndRaceMarkKept : Prop :=
  ∀ s t : State, step s = .next t → t.params = s.params ∧ (s.raceMark = true → t.raceMark = true)

/-- R76, R104: a `wait` on a running command ends: after the polls the schedule puts first comes the completion, and the
next poll ends the wait with a STATUS whose BUSY bit is 0. -/
def Obligations.WaitEndsAfterFinitelyManyPolls : Prop :=
  ∀ (s : State) (n : Nat) (rest : List HostStmt), s.busy = true → s.latch.isSome = true →
    s.inputs = .wait :: rest → s.turns = List.replicate n .host →
    ∃ t v, core.run (n + 2) s = .next t ∧ t.inputs = rest ∧ t.busy = false ∧ t.done = true ∧
      t.results = .word v :: s.results ∧ v.getLsbD 0 = false ∧ v.getLsbD 1 = true

/-- R104, R111: every command with a latch completes: BUSY 0, DONE 1, ERR and CAUSE a row of R201 or 0, the latch and all
hidden state absent. -/
def Obligations.EveryCommandCompletesAndScrubs : Prop :=
  ∀ (i : Instr) (s : State) (L : Latch), s.latch = some L →
    ∃ t, exec i s = .next t ∧ t.busy = false ∧ t.done = true ∧ reportablePair t.err t.cause ∧
      t.latch = none ∧ t.rc4 = none ∧ t.cbc = none

/-- R33: there is no completion step without a latch. That the model stops there is its choice (log 10). -/
def Obligations.NoLatchNoCompletion : Prop :=
  ∀ (i : Instr) (s : State), s.latch = none → exec i s = .fault .noCommandLatched

/-! ## The check pipeline -/

/-- R105, R203: a command whose operands fail a check completes with the first error in the order of R105, and changes
nothing but STATUS, ERRINFO and OUTLEN. -/
def Obligations.FirstFailingCheckIsReported : Prop :=
  ∀ (i : Instr) (s : State) (L : Latch) (e : BitVec 4) (c : BitVec 8), s.latch = some L →
    firstError s i L = some (e, c) → exec i s = .next (completed s e c 0#32)

/-- R133: an XOR command with KLEN != LEN completes with ERR_INVALID, CAUSE 1, whatever the addresses. -/
def Obligations.XorLengthMismatchAlwaysFails : Prop :=
  ∀ (s : State) (L : Latch), s.latch = some L → L.klen ≠ L.len →
    exec .xor s = .next (completed s 2#4 1#8 0#32)

/-- R202: which command can complete with which error. -/
def Obligations.EachCommandRaisesOnlyItsErrors : Prop :=
  ∀ (i : Instr) (s t : State), exec i s = .next t → t.err ≠ 0#4 → (t.err, t.cause) ∈ possibleErrors i

/-- R110, R204: an error completion writes no DMEM byte, sets OUTLEN to 0, and leaves every register other than STATUS,
ERRINFO and OUTLEN. -/
def Obligations.ErrorCompletionLeavesNoPartialEffect : Prop :=
  ∀ (i : Instr) (s t : State), exec i s = .next t → t.err ≠ 0#4 →
    t.outlen = 0#32 ∧
    t = { completed s t.err t.cause 0#32 with
      entropyAnswers := t.entropyAnswers, entropyDraws := t.entropyDraws, freeDraws := t.freeDraws }

/-- R65 and the frame of every command: outside the OUTLEN bytes from DST every DMEM byte is unchanged, OUTLEN stays inside
the destination window, and no register changes but STATUS, ERRINFO and OUTLEN; OVR and IE keep their values. -/
def Obligations.CommandChangesOnlyItsDestination : Prop :=
  ∀ (i : Instr) (s t : State) (L : Latch), s.latch = some L → exec i s = .next t →
    t.outlen.toNat ≤ destLength i L ∧
    (∀ a, ¬(L.dst.toNat ≤ a ∧ a < L.dst.toNat + t.outlen.toNat) → byteAt t a = byteAt s a) ∧
    (∃ m f, t = { completed s t.err t.cause t.outlen with
      dmem := m, freeDraws := f, entropyAnswers := t.entropyAnswers, entropyDraws := t.entropyDraws }) ∧
    (s.raced = false → t.freeDraws = s.freeDraws)

/-- R113: exactly one entropy draw by a GENKEY or CBCENC that reaches run_op, none by any other command or by one that
fails a check. -/
def Obligations.EntropyDrawnExactlyWhenTransformRuns : Prop :=
  ∀ (i : Instr) (s t : State) (L : Latch), s.latch = some L → exec i s = .next t →
    ((i = .genkey ∨ i = .cbcenc) ∧ firstError s i L = none →
      t.entropyDraws = s.entropyDraws + 1 ∧ t.entropyAnswers = s.entropyAnswers.tail) ∧
    (¬((i = .genkey ∨ i = .cbcenc) ∧ firstError s i L = none) →
      t.entropyDraws = s.entropyDraws ∧ t.entropyAnswers = s.entropyAnswers)

/-- R112: GENKEY reads neither SRC, KEY nor KLEN of the latch. -/
def Obligations.GenkeyIgnoresUnusedOperands : Prop :=
  ∀ (s : State) (L : Latch) (a b c : Word), s.latch = some L →
    exec .genkey { s with latch := some { L with src := a, key := b, klen := c } } = exec .genkey s

/-- R112, R152: a command reads DMEM only inside its source and key windows: two memories that agree there give the same
result, the same output bytes and the same registers. -/
def Obligations.CommandReadsOnlyItsInputWindows : Prop :=
  ∀ (i : Instr) (s t : State) (L : Latch) (m : Memory), s.latch = some L →
    (∀ a, inInput i L a → Memory.read Config.env m a = byteAt s a) → exec i s = .next t →
    ∃ t', exec i { s with dmem := m } = .next t' ∧ t' = { t with dmem := t'.dmem } ∧
      ∀ a, L.dst.toNat ≤ a → a < L.dst.toNat + t.outlen.toNat → byteAt t' a = byteAt t a

/-- R33, R235: the completion reads only the latch: parameter registers written after the issue change no result. -/
def Obligations.CompletionIgnoresParameterRegisters : Prop :=
  ∀ (i : Instr) (s t : State) (a b c d e : Word), exec i s = .next t →
    exec i { s with src := a, len := b, key := c, klen := d, dst := e } =
      .next { t with src := a, len := b, key := c, klen := d, dst := e }

/-- R39: no command starts from the RC4 or chaining state of another, and no register shows the hidden state. -/
def Obligations.HiddenStateIsNeitherUsedNorShown : Prop :=
  (∀ (i : Instr) (s : State) (x : Option Rc4State) (y : Option CbcState),
    exec i { s with rc4 := x, cbc := y } = exec i s) ∧
  (∀ (s : State) (off : Nat) (l : Option Latch) (x : Option Rc4State) (y : Option CbcState),
    { s with latch := l, rc4 := x, cbc := y }.readSlot off = s.readSlot off)

/-! ## Entropy -/

/-- R121: a draw answers exhausted or exactly n bytes, and any answer may come, by the model's queue of ready answers
(log 4). -/
def Obligations.EntropyMayAnswerAnything : Prop :=
  (∀ (s : State) (n : Nat) (r : List Byte), s.entropyAnswer Config.env n = some r → r.length = n) ∧
  (∀ (s : State) (r : List Byte), ∃ q, { s with entropyAnswers := q }.entropyAnswer Config.env r.length = some r) ∧
  (∀ (s : State) (n : Nat), ∃ q, { s with entropyAnswers := q }.entropyAnswer Config.env n = none)

/-! ## The results of the commands -/

/-- R120: GENKEY writes the LEN bytes of its draw at DST, or completes with ERR_ENTROPY and writes nothing. -/
def Obligations.GenkeyWritesItsDraw : Prop :=
  ∀ (s : State) (L : Latch), s.latch = some L → s.raced = false → fits s L.dst.toNat L.len.toNat →
    (∀ r, s.entropyAnswer Config.env L.len.toNat = some r → r.length = L.len.toNat ∧
      exec .genkey s = .next { completed (drawn s) 0#4 0#8 L.len with
        dmem := Memory.writeBytes s.dmem L.dst.toNat r }) ∧
    (s.entropyAnswer Config.env L.len.toNat = none →
      exec .genkey s = .next (completed (drawn s) 5#4 1#8 0#32))

/-- R130: XOR writes data XOR key at DST, in place or apart from its inputs. -/
def Obligations.XorWritesDataXorKey : Prop :=
  ∀ (s : State) (L : Latch), s.latch = some L → s.raced = false → L.klen = L.len → streamOperandsFit s L →
    exec .xor s = .next { completed s 0#4 0#8 L.len with
      dmem := Memory.writeBytes s.dmem L.dst.toNat
        (List.zipWith xorByte (bytesAt s L.src.toNat L.len.toNat) (bytesAt s L.key.toNat L.len.toNat)) }

/-- R147: RC4 writes PRGA(KSA(K), D) at DST, in place or apart from its inputs. -/
def Obligations.Rc4WritesThePrgaOutput : Prop :=
  ∀ (s : State) (L : Latch), s.latch = some L → s.raced = false → L.klen ≠ 0#32 → streamOperandsFit s L →
    exec .rc4 s = .next { completed s 0#4 0#8 L.len with
      dmem := Memory.writeBytes s.dmem L.dst.toNat
        (prga (ksa (bytesAt s L.key.toNat L.klen.toNat)) (bytesAt s L.src.toNat L.len.toNat)) }

/-- R174: CBCENC draws an IV and writes the IV and the chained ciphertext of the padded plaintext, or completes with
ERR_ENTROPY and writes nothing. -/
def Obligations.CbcencWritesTheBlob : Prop :=
  ∀ (s : State) (L : Latch), s.latch = some L → s.raced = false →
    blockOperandsFit s L (16 + 16 * (L.len.toNat / 16 + 1)) →
    (∀ iv, s.entropyAnswer Config.env 16 = some iv → iv.length = 16 ∧
      exec .cbcenc s = .next { completed (drawn s) 0#4 0#8 (BitVec.ofNat 32 (16 + 16 * (L.len.toNat / 16 + 1))) with
        dmem := Memory.writeBytes s.dmem L.dst.toNat
          (iv ++ cbcEnc (Config.env.encryptBlock s.params (bytesAt s L.key.toNat L.klen.toNat)) (blockAt iv 0)
            (pad (bytesAt s L.src.toNat L.len.toNat))) }) ∧
    (s.entropyAnswer Config.env 16 = none →
      exec .cbcenc s = .next (completed (drawn s) 5#4 1#8 0#32))

/-- R175: CBCDEC validates the padding of the last decrypted block, then writes the unpadded plaintext; with bad padding it
writes nothing. -/
def Obligations.CbcdecWritesTheUnpaddedPlaintext : Prop :=
  ∀ (s : State) (L : Latch) (D : Block → Block) (blob : List Byte), s.latch = some L → s.raced = false →
    32 ≤ L.len.toNat → L.len.toNat % 16 = 0 → blockOperandsFit s L (L.len.toNat - 17) →
    D = Config.env.decryptBlock s.params (bytesAt s L.key.toNat L.klen.toNat) → blob = bytesAt s L.src.toNat L.len.toNat →
    (∀ N, padCheck (lastPlainBlock D (blockAt blob 0) (blob.drop 16)) = .ok N →
      exec .cbcdec s = .next { completed s 0#4 0#8 (BitVec.ofNat 32 (L.len.toNat - 16 - N)) with
        dmem := Memory.writeBytes s.dmem L.dst.toNat
          ((cbcDec D (blockAt blob 0) (blob.drop 16)).take (L.len.toNat - 16 - N)) }) ∧
    (∀ e, padCheck (lastPlainBlock D (blockAt blob 0) (blob.drop 16)) = .error e →
      exec .cbcdec s = .next (completed s e.code e.cause 0#32))

/-- R179: which last decrypted bytes give ERR_PADDING 1 and which ERR_PADDING 2. -/
def Obligations.CbcdecPaddingErrorsExactly : Prop :=
  ∀ (s t : State) (L : Latch) (B : List Byte) (blob : List Byte), s.latch = some L → s.raced = false →
    32 ≤ L.len.toNat → L.len.toNat % 16 = 0 → blockOperandsFit s L (L.len.toNat - 17) →
    blob = bytesAt s L.src.toNat L.len.toNat →
    B = List.zipWith xorByte
      (Config.env.decryptBlock s.params (bytesAt s L.key.toNat L.klen.toNat) (blockAt blob (L.len.toNat / 16 - 1))).toList
      (blockAt blob (L.len.toNat / 16 - 2)).toList →
    exec .cbcdec s = .next t →
    ((t.err = 4#4 ∧ t.cause = 1#8) ↔ (B.getD 15 0#8 = 0#8 ∨ 16 < (B.getD 15 0#8).toNat)) ∧
    ((t.err = 4#4 ∧ t.cause = 2#8) ↔ (1 ≤ (B.getD 15 0#8).toNat ∧ (B.getD 15 0#8).toNat ≤ 16 ∧
      ∃ k, 16 - (B.getD 15 0#8).toNat ≤ k ∧ k < 15 ∧ B.getD k 0#8 ≠ B.getD 15 0#8))

/-- R178: a successful CBCENC writes a blob of that many bytes, the IV it drew first and the rest ciphertext. -/
def Obligations.CbcencBlobFormat : Prop :=
  ∀ (s t : State) (L : Latch), s.latch = some L → exec .cbcenc s = .next t → t.err = 0#4 →
    t.outlen.toNat = 16 + 16 * (L.len.toNat / 16 + 1) ∧ 32 ≤ t.outlen.toNat ∧ t.outlen.toNat % 16 = 0 ∧
    (s.raced = false → ∃ iv, s.entropyAnswer Config.env 16 = some iv ∧ iv = bytesAt t L.dst.toNat 16 ∧
      bytesAt t (L.dst.toNat + 16) (t.outlen.toNat - 16) =
        cbcEnc (Config.env.encryptBlock s.params (bytesAt s L.key.toNat L.klen.toNat)) (blockAt iv 0)
          (pad (bytesAt s L.src.toNat L.len.toNat)))

/-! ## DMEM -/

/-- R10: MemWrite stores its bytes at consecutive addresses and leaves every other byte. -/
def Obligations.MemWriteStoresConsecutiveBytes : Prop :=
  ∀ (env : Environment) (m : Memory) (a x : Nat) (bs : List Byte),
    Memory.read env (Memory.writeBytes m a bs) x =
      if a ≤ x ∧ x < a + bs.length then bs.getD (x - a) 0#8 else Memory.read env m x

/-- R10, R53: MemRead gives the n bytes DMEM[a], ..., DMEM[a + n - 1], index 0 first. -/
def Obligations.MemReadReturnsConsecutiveBytes : Prop :=
  ∀ (env : Environment) (m : Memory) (a n : Nat),
    (Memory.readBytes env m a n).length = n ∧
    ∀ k, k < n → (Memory.readBytes env m a n).getD k 0#8 = Memory.read env m (a + k)

/-- R50, R64: a host DMEM read returns the byte, a free byte in the running command's destination window, and stops at an
address that does not exist (the free byte is the model's, log 5; the stop is its choice, log 11). -/
def Obligations.HostDmemReadReturnsByteOrFreeValue : Prop :=
  ∀ (s : State) (a : Nat) (rest : List HostStmt), hostMoves s → s.inputs = .memRead a :: rest →
    (a < s.params.memSize → ¬runningDest s a →
      step s = .next { performed s rest with results := .byte (byteAt s a) :: s.results }) ∧
    (a < s.params.memSize → runningDest s a →
      step s = .next { performed s rest with
        results := .byte (Config.env.freeByte s.freeDraws) :: s.results, freeDraws := s.freeDraws + 1 }) ∧
    (s.params.memSize ≤ a → step s = .fault .hostAddressAbsent)

/-- R64 (b), R217: a host DMEM byte write stores the byte; it sets the race mark exactly when a running command owns the
byte (that the byte is stored, and `raced`, are the model's choice, log 7). -/
def Obligations.HostDmemWriteStoresAndMarksRaces : Prop :=
  ∀ (s : State) (a : Nat) (b : Byte) (bs : List Byte) (rest : List HostStmt), hostMoves s →
    s.inputs = .memWrite a (b :: bs) :: rest → a < s.params.memSize →
    ∃ t, step s = .next t ∧ byteAt t a = b ∧ (∀ x, x ≠ a → byteAt t x = byteAt s x) ∧
      (runningWindow s a → t.raceMark = true ∧ t.raced = true) ∧
      (¬runningWindow s a → t.raceMark = s.raceMark ∧ t.raced = s.raced) ∧
      t = { performed s (if bs = [] then rest else .memWrite (a + 1) bs :: rest) with
        dmem := t.dmem, raceMark := t.raceMark, raced := t.raced }

/-! ## Laws of the families -/

/-- R132: XOR is its own inverse, on byte sequences and through two successful commands with the same key bytes. -/
def Obligations.XorTwiceRestoresTheData : Prop :=
  (∀ D K : List Byte, D.length = K.length → xorBytes (xorBytes D K) K = D) ∧
  (∀ (s t u v : State) (L M : Latch), s.latch = some L → s.raced = false → exec .xor s = .next t → t.err = 0#4 →
    u.latch = some M → u.raced = false → u.dmem = t.dmem → M.src = L.dst → M.len = L.len →
    bytesAt u M.key.toNat M.len.toNat = bytesAt s L.key.toNat L.len.toNat →
    exec .xor u = .next v → v.err = 0#4 →
    bytesAt v M.dst.toNat M.len.toNat = bytesAt s L.src.toNat L.len.toNat)

/-- R141 to R146: where the KSA and the PRGA start, one step of each entry by entry, and how many steps each makes in
which order (R141 marks the KSA's j = 0 as general knowledge, log 13). -/
def Obligations.Rc4MachineRunsKsaThenPrga : Prop :=
  (KsaState.start.n = 0 ∧ KsaState.start.j = 0#8 ∧ ∀ x : Byte, SBox.at KsaState.start.sbox x = x) ∧
  (∀ K : List Byte, ksa K = ((ksaStep K)^[256] KsaState.start).sbox) ∧
  (∀ (S : SBox) (D : List Byte), prga S D = (D.foldl prgaStep ⟨0, 0#8, 0#8, S, []⟩).out ∧ (prga S D).length = D.length) ∧
  (∀ (K : List Byte) (st : KsaState) (x n j : Byte), st.n < 256 → K ≠ [] → n = BitVec.ofNat 8 st.n →
    j = st.j + SBox.at st.sbox n + K.getD (st.n % K.length) 0#8 →
    (ksaStep K st).n = st.n + 1 ∧ (ksaStep K st).j = j ∧
    SBox.at (ksaStep K st).sbox x =
      if x = j then SBox.at st.sbox n else if x = n then SBox.at st.sbox j else SBox.at st.sbox x) ∧
  (∀ (st u : PrgaState) (p x i j : Byte), u = prgaStep st p → i = st.i + 1#8 → j = st.j + SBox.at st.sbox i →
    u.k = st.k + 1 ∧ u.i = i ∧ u.j = j ∧
    (SBox.at u.sbox x =
      if x = j then SBox.at st.sbox i else if x = i then SBox.at st.sbox j else SBox.at st.sbox x) ∧
    u.out = st.out ++ [p ^^^ SBox.at u.sbox (SBox.at u.sbox i + SBox.at u.sbox j)])

/-- R149: S is a permutation at the start, after every KSA step and after every PRGA step. -/
def Obligations.Rc4StateStaysAPermutation : Prop :=
  ∀ (K D : List Byte) (n : Nat), K ≠ [] → n ≤ 256 →
    SBox.isPermutation KsaState.start.sbox ∧ SBox.isPermutation (ksaRun K n).sbox ∧
    SBox.isPermutation (prgaRun (PrgaState.start (ksa K)) D).sbox

/-- R150: RC4 is its own inverse, on byte sequences and through two successful commands with the same key bytes; its
keystream does not depend on the data. -/
def Obligations.Rc4TwiceRestoresTheData : Prop :=
  (∀ K D : List Byte, 1 ≤ K.length → prga (ksa K) (prga (ksa K) D) = D) ∧
  (∀ K D : List Byte, 1 ≤ K.length → prga (ksa K) D = xorBytes D (prga (ksa K) (List.replicate D.length 0#8))) ∧
  (∀ (s t u v : State) (L M : Latch), s.latch = some L → s.raced = false → exec .rc4 s = .next t → t.err = 0#4 →
    u.latch = some M → u.raced = false → u.dmem = t.dmem → M.src = L.dst → M.len = L.len →
    bytesAt u M.key.toNat M.klen.toNat = bytesAt s L.key.toNat L.klen.toNat →
    exec .rc4 u = .next v → v.err = 0#4 →
    bytesAt v M.dst.toNat M.len.toNat = bytesAt s L.src.toNat L.len.toNat)

/-- R151: the KSA depends only on K[n mod |K|] for n in [0, 255]; a key longer than 256 bytes counts by its first 256. -/
def Obligations.KsaDependsOnTheFirst256KeyBytes : Prop :=
  (∀ K₁ K₂ : List Byte, K₁ ≠ [] → K₂ ≠ [] →
    (∀ n, n < 256 → K₁.getD (n % K₁.length) 0#8 = K₂.getD (n % K₂.length) 0#8) → ksa K₁ = ksa K₂) ∧
  (∀ K : List Byte, 256 < K.length → ksa K = ksa (K.take 256))

/-- R170: how many padding bytes there are, what they are, and how long the padded sequence is. -/
def Obligations.PaddingShape : Prop :=
  ∀ P : List Byte, ∃ N, N = 16 - P.length % 16 ∧ 1 ≤ N ∧ N ≤ 16 ∧ (P.length % 16 = 0 → N = 16) ∧
    pad P = P ++ List.replicate N (BitVec.ofNat 8 N) ∧ (pad P).length = 16 * (P.length / 16 + 1)

/-- R171: what the padding validator answers on a block. -/
def Obligations.PaddingValidatorAnswers : Prop :=
  ∀ (B : Block) (N : Nat), N = (B.toList.getD 15 0#8).toNat →
    ((N < 1 ∨ 16 < N) → padCheck B = .error .paddingCount) ∧
    (1 ≤ N → N ≤ 16 → (∃ k, 16 - N ≤ k ∧ k < 16 ∧ (B.toList.getD k 0#8).toNat ≠ N) →
      padCheck B = .error .paddingBytes) ∧
    (1 ≤ N → N ≤ 16 → (∀ k, 16 - N ≤ k → k < 16 → (B.toList.getD k 0#8).toNat = N) → padCheck B = .ok N)

/-- R172: every ciphertext block is the encryption of its plaintext block XOR the previous ciphertext block, the IV for the
first. -/
def Obligations.CbcEncryptionChains : Prop :=
  ∀ (E : Block → Block) (iv : Block) (Q : List Byte), Q.length % 16 = 0 →
    (cbcEnc E iv Q).length = Q.length ∧
    ∀ m, m < Q.length / 16 →
      blockAt (cbcEnc E iv Q) m =
        E (xorBlock (blockAt Q m) (if m = 0 then iv else blockAt (cbcEnc E iv Q) (m - 1)))

/-- R173: every plaintext block is the decryption of its ciphertext block XOR the previous ciphertext block, the IV for the
first. -/
def Obligations.CbcDecryptionChains : Prop :=
  ∀ (D : Block → Block) (iv : Block) (C : List Byte), C.length % 16 = 0 →
    (cbcDec D iv C).length = C.length ∧
    ∀ m, m < C.length / 16 →
      blockAt (cbcDec D iv C) m = xorBlock (D (blockAt C m)) (if m = 0 then iv else blockAt C (m - 1))

/-- R176: under every key of an accepted size the CBCDEC pipeline on a blob of the CBCENC pipeline gives the plaintext
back, and so do the two commands with the same key bytes, whose checks accept the key size. -/
def Obligations.CbcRoundTripRestoresThePlaintext : Prop :=
  (∀ (env : Environment) (p : Params) (k P : List Byte) (iv : Block) (C : List Byte), p.acceptsKey k.length = true →
    C = cbcEnc (env.encryptBlock p k) iv (pad P) →
    padCheck (lastPlainBlock (env.decryptBlock p k) iv C) = .ok (padCount P) ∧
    (cbcDec (env.decryptBlock p k) iv C).take (C.length - padCount P) = P) ∧
  (∀ (s t u : State) (L M : Latch), s.latch = some L → s.raced = false → exec .cbcenc s = .next t → t.err = 0#4 →
    u.latch = some M → u.raced = false → u.dmem = t.dmem → M.src = L.dst → M.len = t.outlen →
    bytesAt u M.key.toNat M.klen.toNat = bytesAt s L.key.toNat L.klen.toNat →
    blockOperandsFit u M (M.len.toNat - 17) →
    ∃ v, exec .cbcdec u = .next v ∧ v.err = 0#4 ∧ v.outlen = L.len ∧
      bytesAt v M.dst.toNat L.len.toNat = bytesAt s L.src.toNat L.len.toNat)

/-! ## The invariant -/

/-- The invariant of the machine's states holds right after reset. -/
def Obligations.InvariantHoldsAtReset : Prop := State.reset.Inv

/-- Every step, from every state that meets the invariant, keeps it: BUSY says that a command is latched, BUSY and DONE are
never both 1, the result registers read 0 while BUSY, ERR and CAUSE are a row of R201, hidden state is absent between steps,
a raced command is marked (log 7), and DMEM is canonical (log 6) and lies below MEM_SIZE. -/
def Obligations.EveryStepKeepsTheInvariant : Prop :=
  ∀ s t : State, s.Inv → step s = .next t → t.Inv
end

