-- ==== Sys2Proof/Laws/Operands.lean ====
section
/-! SUPPORT. What the open parameters and the operand checks say: the law of the block cipher, range, overlap, and what has been established when every check passed. -/

namespace Sys2Proof

theorem Params.memSize_le (p : Params) : p.memSize ≤ 2 ^ 32 := by
  have := p.memSizeLessOne.isLt
  simp only [Params.memSize]
  omega

theorem Params.memSize_pos (p : Params) : 0 < p.memSize := by simp [Params.memSize]

theorem Params.acceptsKey_iff (p : Params) (k : Nat) :
    p.acceptsKey k = true ↔ 1 ≤ k ∧ k ≤ 32 ∧ p.keySizeMask.getLsbD (k - 1) = true := by
  simp [Params.acceptsKey, and_assoc]

/-- The one law of the block cipher (R7). -/
theorem Environment.decryptBlock_encryptBlock (env : Environment) {p : Params} {k : List Byte}
    (h : p.acceptsKey k.length = true) (b : Block) : env.decryptBlock p k (env.encryptBlock p k b) = b := by
  simp [Environment.decryptBlock, Environment.encryptBlock, h]

end Sys2Proof

namespace Sys2Proof.Machine

theorem Window.inRange_iff (p : Params) (w : Window) :
    w.inRange p = true ↔ w.size = 0 ∨ w.start + w.size ≤ p.memSize := by
  simp [Window.inRange]

theorem Window.overlaps_iff (v w : Window) :
    v.overlaps w = true ↔ (0 < v.size ∧ 0 < w.size ∧ v.start < w.start + w.size ∧ w.start < v.start + v.size) := by
  simp [Window.overlaps, and_assoc]

/-- When every check passed, each group of checks passed (R105). -/
theorem checkError_eq_none {p : Params} {i : Instr} {L : Latch} :
    checkError p i L = none ↔
      preconditionError p i L = none ∧ formatError i L = none ∧ rangeError p i L = none ∧ overlapError i L = none := by
  unfold checkError
  cases preconditionError p i L <;> simp
  cases formatError i L <;> simp
  cases rangeError p i L <;> simp

theorem rangeError_eq_none {p : Params} {i : Instr} {L : Latch} :
    rangeError p i L = none ↔
      (windows i L).source.inRange p = true ∧ (windows i L).key.inRange p = true ∧ (windows i L).dest.inRange p = true := by
  unfold rangeError
  cases (windows i L).source.inRange p <;> simp
  cases (windows i L).key.inRange p <;> simp

theorem overlapError_eq_none {i : Instr} {L : Latch} : overlapError i L = none ↔ overlapBad i L = false := by
  unfold overlapError
  cases overlapBad i L <;> simp

/-- The destination window of a command that passed its checks lies in DMEM (R107). -/
theorem dest_inRange_of_checked {p : Params} {i : Instr} {L : Latch} (h : checkError p i L = none) :
    (windows i L).dest.size = 0 ∨ (windows i L).dest.start + (windows i L).dest.size ≤ p.memSize :=
  (Window.inRange_iff p _).mp (rangeError_eq_none.mp (checkError_eq_none.mp h).2.2.1).2.2

@[simp] theorem windows_dest_start (i : Instr) (L : Latch) : (windows i L).dest.start = L.dst.toNat := by
  cases i <;> rfl

end Sys2Proof.Machine
end

