-- ==== Sys2Proof/Laws/Memory.lean ====
section
/-! SUPPORT. The laws of DMEM: read after write, and that every write keeps the canonical form and stays below MEM_SIZE. -/

namespace Sys2Proof.Machine

/-! ### One byte -/

theorem Memory.lookup_insert (m : Memory) (a x : Nat) (v : Byte) :
    Memory.lookup (Memory.insert m a v) x = if a = x then some v else Memory.lookup m x := by
  induction m with
  | nil => rfl
  | cons c m ih =>
    obtain ⟨k, u⟩ := c
    simp only [Memory.insert]
    split
    · rfl
    · split
      · rename_i h₁ h₂
        subst h₂
        by_cases h : a = x <;> simp [Memory.lookup, h]
      · rename_i h₁ h₂
        simp only [Memory.lookup, ih]
        by_cases hk : k = x
        · simp [hk, show a ≠ x by omega]
        · simp [hk]

@[simp] theorem Memory.read_write_same (env : Environment) (m : Memory) (a : Nat) (v : Byte) :
    Memory.read env (Memory.write m a v) a = v := by
  simp [Memory.read, Memory.write, Memory.lookup_insert]

@[simp] theorem Memory.read_write_other (env : Environment) (m : Memory) {a x : Nat} (v : Byte) (h : x ≠ a) :
    Memory.read env (Memory.write m a v) x = Memory.read env m x := by
  simp [Memory.read, Memory.write, Memory.lookup_insert, h.symm]

/-! ### The canonical form -/

theorem Memory.risesAbove_insert {m : Memory} {lo a : Nat} {v : Byte} (hm : Memory.risesAbove lo m = true)
    (h : lo < a) : Memory.risesAbove lo (Memory.insert m a v) = true := by
  induction m generalizing lo with
  | nil => simp [Memory.insert, Memory.risesAbove, h]
  | cons c m ih =>
    obtain ⟨k, u⟩ := c
    simp only [Memory.risesAbove, Bool.and_eq_true, decide_eq_true_eq] at hm
    simp only [Memory.insert]
    split
    · simp [Memory.risesAbove, hm.2, *]
    · split
      · rename_i h₂
        subst h₂
        simp [Memory.risesAbove, h, hm.2]
      · simp [Memory.risesAbove, hm.1, ih hm.2 (by omega : k < a)]

theorem Memory.wf_write {m : Memory} (hm : Memory.wf m = true) (a : Nat) (v : Byte) :
    Memory.wf (Memory.write m a v) = true := by
  cases m with
  | nil => rfl
  | cons c m =>
    obtain ⟨k, u⟩ := c
    simp only [Memory.wf, Memory.rises] at hm
    simp only [Memory.wf, Memory.write, Memory.insert]
    split
    · simp [Memory.rises, Memory.risesAbove, *]
    · split
      · rename_i h₂
        subst h₂
        exact hm
      · exact Memory.risesAbove_insert hm (by omega)

theorem Memory.inside_write {p : Params} {m : Memory} (hm : Memory.inside p m = true) {a : Nat} (h : a < p.memSize)
    (v : Byte) : Memory.inside p (Memory.write m a v) = true := by
  simp only [Memory.write]
  induction m with
  | nil => simp [Memory.insert, Memory.inside, h]
  | cons c m ih =>
    obtain ⟨k, u⟩ := c
    simp only [Memory.inside, List.all_cons, Bool.and_eq_true, decide_eq_true_eq] at hm ih
    simp only [Memory.insert]
    split
    · simp only [Memory.inside, List.all_cons, Bool.and_eq_true, decide_eq_true_eq]
      exact ⟨h, hm⟩
    · split
      · simp only [Memory.inside, List.all_cons, Bool.and_eq_true, decide_eq_true_eq]
        exact ⟨h, hm.2⟩
      · simp only [Memory.inside, List.all_cons, Bool.and_eq_true, decide_eq_true_eq]
        exact ⟨hm.1, ih hm.2⟩

/-! ### Byte sequences -/

@[simp] theorem Memory.length_readBytes (env : Environment) (m : Memory) (a n : Nat) :
    (Memory.readBytes env m a n).length = n := by
  induction n generalizing a with
  | zero => rfl
  | succ n ih => simp [Memory.readBytes, ih]

/-- `MemRead` as the list of its bytes. -/
theorem Memory.readBytes_eq_map (env : Environment) (m : Memory) (a n : Nat) :
    Memory.readBytes env m a n = (List.range n).map (fun k => Memory.read env m (a + k)) := by
  induction n generalizing a with
  | zero => rfl
  | succ n ih =>
    rw [Memory.readBytes, ih, List.range_succ_eq_map, List.map_cons, List.map_map]
    simp [Function.comp_def, Nat.add_comm, Nat.add_left_comm]

/-- `MemRead` depends only on the bytes of its window. -/
theorem Memory.readBytes_congr {env : Environment} {m m' : Memory} {a n : Nat}
    (h : ∀ x, a ≤ x → x < a + n → Memory.read env m' x = Memory.read env m x) :
    Memory.readBytes env m' a n = Memory.readBytes env m a n := by
  simp only [Memory.readBytes_eq_map]
  refine List.map_congr_left fun k hk => ?_
  have := List.mem_range.mp hk
  exact h _ (by omega) (by omega)

/-- What one byte reads as after `MemWrite`, outside the bytes written. -/
theorem Memory.read_writeBytes_outside (env : Environment) (bs : List Byte) (m : Memory) {a x : Nat}
    (h : x < a ∨ a + bs.length ≤ x) :
    Memory.read env (Memory.writeBytes m a bs) x = Memory.read env m x := by
  induction bs generalizing m a with
  | nil => rfl
  | cons b bs ih =>
    simp only [List.length_cons] at h
    rw [Memory.writeBytes, ih _ (by omega), Memory.read_write_other _ _ _ (by omega)]

/-- What one byte reads as after `MemWrite`, inside the bytes written. -/
theorem Memory.read_writeBytes_inside (env : Environment) (bs : List Byte) (m : Memory) {a k : Nat}
    (h : k < bs.length) :
    Memory.read env (Memory.writeBytes m a bs) (a + k) = bs[k] := by
  induction bs generalizing m a k with
  | nil => simp at h
  | cons b bs ih =>
    cases k with
    | zero =>
      rw [Memory.writeBytes, Nat.add_zero, Memory.read_writeBytes_outside env bs _ (by omega)]
      simp
    | succ k =>
      simp only [List.length_cons] at h
      rw [Memory.writeBytes, show a + (k + 1) = (a + 1) + k by omega, ih _ (by omega)]
      simp

/-- `MemRead` of what `MemWrite` wrote. -/
theorem Memory.readBytes_writeBytes (env : Environment) (m : Memory) (a : Nat) (bs : List Byte) :
    Memory.readBytes env (Memory.writeBytes m a bs) a bs.length = bs := by
  rw [Memory.readBytes_eq_map]
  refine List.ext_getElem (by simp) fun k h₁ h₂ => ?_
  simp [Memory.read_writeBytes_inside env bs m h₂]

theorem Memory.wf_writeBytes {m : Memory} (hm : Memory.wf m = true) (a : Nat) (bs : List Byte) :
    Memory.wf (Memory.writeBytes m a bs) = true := by
  induction bs generalizing m a with
  | nil => exact hm
  | cons b bs ih => exact ih (Memory.wf_write hm a b) (a + 1)

theorem Memory.inside_writeBytes {p : Params} {m : Memory} (hm : Memory.inside p m = true) {a : Nat}
    {bs : List Byte} (h : bs = [] ∨ a + bs.length ≤ p.memSize) :
    Memory.inside p (Memory.writeBytes m a bs) = true := by
  induction bs generalizing m a with
  | nil => exact hm
  | cons b bs ih =>
    have h : a + (bs.length + 1) ≤ p.memSize := by simpa using h
    exact ih (Memory.inside_write hm (by omega) b) (.inr (by omega))

end Sys2Proof.Machine
end

