-- ==== Sys2Proof/Laws/State.lean ====
section
/-! SUPPORT. What each named update of State does to each field: one lemma a field, true by rfl, for simp. -/

namespace Sys2Proof.Machine

/-! ### State.issue -/

@[simp] theorem State.issue_params (s : State) (w : Word) : (s.issue w).params = s.params := rfl
@[simp] theorem State.issue_ie (s : State) (w : Word) : (s.issue w).ie = s.ie := rfl
@[simp] theorem State.issue_busy (s : State) (w : Word) : (s.issue w).busy = true := rfl
@[simp] theorem State.issue_done (s : State) (w : Word) : (s.issue w).done = false := rfl
@[simp] theorem State.issue_ovr (s : State) (w : Word) : (s.issue w).ovr = s.ovr := rfl
@[simp] theorem State.issue_err (s : State) (w : Word) : (s.issue w).err = 0#4 := rfl
@[simp] theorem State.issue_src (s : State) (w : Word) : (s.issue w).src = s.src := rfl
@[simp] theorem State.issue_len (s : State) (w : Word) : (s.issue w).len = s.len := rfl
@[simp] theorem State.issue_key (s : State) (w : Word) : (s.issue w).key = s.key := rfl
@[simp] theorem State.issue_klen (s : State) (w : Word) : (s.issue w).klen = s.klen := rfl
@[simp] theorem State.issue_dst (s : State) (w : Word) : (s.issue w).dst = s.dst := rfl
@[simp] theorem State.issue_outlen (s : State) (w : Word) : (s.issue w).outlen = 0#32 := rfl
@[simp] theorem State.issue_cause (s : State) (w : Word) : (s.issue w).cause = 0#8 := rfl
@[simp] theorem State.issue_latch (s : State) (w : Word) : (s.issue w).latch = some (s.latchFor w) := rfl
@[simp] theorem State.issue_rc4 (s : State) (w : Word) : (s.issue w).rc4 = s.rc4 := rfl
@[simp] theorem State.issue_cbc (s : State) (w : Word) : (s.issue w).cbc = s.cbc := rfl
@[simp] theorem State.issue_dmem (s : State) (w : Word) : (s.issue w).dmem = s.dmem := rfl
@[simp] theorem State.issue_raceMark (s : State) (w : Word) : (s.issue w).raceMark = s.raceMark := rfl
@[simp] theorem State.issue_raced (s : State) (w : Word) : (s.issue w).raced = false := rfl
@[simp] theorem State.issue_entropyAnswers (s : State) (w : Word) : (s.issue w).entropyAnswers = s.entropyAnswers := rfl
@[simp] theorem State.issue_entropyDraws (s : State) (w : Word) : (s.issue w).entropyDraws = s.entropyDraws := rfl
@[simp] theorem State.issue_freeDraws (s : State) (w : Word) : (s.issue w).freeDraws = s.freeDraws := rfl
@[simp] theorem State.issue_inputs (s : State) (w : Word) : (s.issue w).inputs = s.inputs := rfl
@[simp] theorem State.issue_turns (s : State) (w : Word) : (s.issue w).turns = s.turns := rfl
@[simp] theorem State.issue_results (s : State) (w : Word) : (s.issue w).results = s.results := rfl

/-! ### State.scrub -/

@[simp] theorem State.scrub_params (s : State) : s.scrub.params = s.params := rfl
@[simp] theorem State.scrub_ie (s : State) : s.scrub.ie = s.ie := rfl
@[simp] theorem State.scrub_busy (s : State) : s.scrub.busy = s.busy := rfl
@[simp] theorem State.scrub_done (s : State) : s.scrub.done = s.done := rfl
@[simp] theorem State.scrub_ovr (s : State) : s.scrub.ovr = s.ovr := rfl
@[simp] theorem State.scrub_err (s : State) : s.scrub.err = s.err := rfl
@[simp] theorem State.scrub_src (s : State) : s.scrub.src = s.src := rfl
@[simp] theorem State.scrub_len (s : State) : s.scrub.len = s.len := rfl
@[simp] theorem State.scrub_key (s : State) : s.scrub.key = s.key := rfl
@[simp] theorem State.scrub_klen (s : State) : s.scrub.klen = s.klen := rfl
@[simp] theorem State.scrub_dst (s : State) : s.scrub.dst = s.dst := rfl
@[simp] theorem State.scrub_outlen (s : State) : s.scrub.outlen = s.outlen := rfl
@[simp] theorem State.scrub_cause (s : State) : s.scrub.cause = s.cause := rfl
@[simp] theorem State.scrub_latch (s : State) : s.scrub.latch = none := rfl
@[simp] theorem State.scrub_rc4 (s : State) : s.scrub.rc4 = none := rfl
@[simp] theorem State.scrub_cbc (s : State) : s.scrub.cbc = none := rfl
@[simp] theorem State.scrub_dmem (s : State) : s.scrub.dmem = s.dmem := rfl
@[simp] theorem State.scrub_raceMark (s : State) : s.scrub.raceMark = s.raceMark := rfl
@[simp] theorem State.scrub_raced (s : State) : s.scrub.raced = false := rfl
@[simp] theorem State.scrub_entropyAnswers (s : State) : s.scrub.entropyAnswers = s.entropyAnswers := rfl
@[simp] theorem State.scrub_entropyDraws (s : State) : s.scrub.entropyDraws = s.entropyDraws := rfl
@[simp] theorem State.scrub_freeDraws (s : State) : s.scrub.freeDraws = s.freeDraws := rfl
@[simp] theorem State.scrub_inputs (s : State) : s.scrub.inputs = s.inputs := rfl
@[simp] theorem State.scrub_turns (s : State) : s.scrub.turns = s.turns := rfl
@[simp] theorem State.scrub_results (s : State) : s.scrub.results = s.results := rfl

/-! ### State.finish -/

@[simp] theorem State.finish_params (s : State) : s.finish.params = s.params := rfl
@[simp] theorem State.finish_ie (s : State) : s.finish.ie = s.ie := rfl
@[simp] theorem State.finish_busy (s : State) : s.finish.busy = false := rfl
@[simp] theorem State.finish_done (s : State) : s.finish.done = true := rfl
@[simp] theorem State.finish_ovr (s : State) : s.finish.ovr = s.ovr := rfl
@[simp] theorem State.finish_err (s : State) : s.finish.err = s.err := rfl
@[simp] theorem State.finish_src (s : State) : s.finish.src = s.src := rfl
@[simp] theorem State.finish_len (s : State) : s.finish.len = s.len := rfl
@[simp] theorem State.finish_key (s : State) : s.finish.key = s.key := rfl
@[simp] theorem State.finish_klen (s : State) : s.finish.klen = s.klen := rfl
@[simp] theorem State.finish_dst (s : State) : s.finish.dst = s.dst := rfl
@[simp] theorem State.finish_outlen (s : State) : s.finish.outlen = s.outlen := rfl
@[simp] theorem State.finish_cause (s : State) : s.finish.cause = s.cause := rfl
@[simp] theorem State.finish_latch (s : State) : s.finish.latch = none := rfl
@[simp] theorem State.finish_rc4 (s : State) : s.finish.rc4 = none := rfl
@[simp] theorem State.finish_cbc (s : State) : s.finish.cbc = none := rfl
@[simp] theorem State.finish_dmem (s : State) : s.finish.dmem = s.dmem := rfl
@[simp] theorem State.finish_raceMark (s : State) : s.finish.raceMark = s.raceMark := rfl
@[simp] theorem State.finish_raced (s : State) : s.finish.raced = false := rfl
@[simp] theorem State.finish_entropyAnswers (s : State) : s.finish.entropyAnswers = s.entropyAnswers := rfl
@[simp] theorem State.finish_entropyDraws (s : State) : s.finish.entropyDraws = s.entropyDraws := rfl
@[simp] theorem State.finish_freeDraws (s : State) : s.finish.freeDraws = s.freeDraws := rfl
@[simp] theorem State.finish_inputs (s : State) : s.finish.inputs = s.inputs := rfl
@[simp] theorem State.finish_turns (s : State) : s.finish.turns = s.turns := rfl
@[simp] theorem State.finish_results (s : State) : s.finish.results = s.results := rfl

/-! ### State.succeed -/

@[simp] theorem State.succeed_params (s : State) (d : Nat) (out : List Byte) : (s.succeed d out).params = s.params := rfl
@[simp] theorem State.succeed_ie (s : State) (d : Nat) (out : List Byte) : (s.succeed d out).ie = s.ie := rfl
@[simp] theorem State.succeed_busy (s : State) (d : Nat) (out : List Byte) : (s.succeed d out).busy = false := rfl
@[simp] theorem State.succeed_done (s : State) (d : Nat) (out : List Byte) : (s.succeed d out).done = true := rfl
@[simp] theorem State.succeed_ovr (s : State) (d : Nat) (out : List Byte) : (s.succeed d out).ovr = s.ovr := rfl
@[simp] theorem State.succeed_err (s : State) (d : Nat) (out : List Byte) : (s.succeed d out).err = 0#4 := rfl
@[simp] theorem State.succeed_src (s : State) (d : Nat) (out : List Byte) : (s.succeed d out).src = s.src := rfl
@[simp] theorem State.succeed_len (s : State) (d : Nat) (out : List Byte) : (s.succeed d out).len = s.len := rfl
@[simp] theorem State.succeed_key (s : State) (d : Nat) (out : List Byte) : (s.succeed d out).key = s.key := rfl
@[simp] theorem State.succeed_klen (s : State) (d : Nat) (out : List Byte) : (s.succeed d out).klen = s.klen := rfl
@[simp] theorem State.succeed_dst (s : State) (d : Nat) (out : List Byte) : (s.succeed d out).dst = s.dst := rfl
@[simp] theorem State.succeed_outlen (s : State) (d : Nat) (out : List Byte) : (s.succeed d out).outlen = BitVec.ofNat 32 out.length := rfl
@[simp] theorem State.succeed_cause (s : State) (d : Nat) (out : List Byte) : (s.succeed d out).cause = 0#8 := rfl
@[simp] theorem State.succeed_latch (s : State) (d : Nat) (out : List Byte) : (s.succeed d out).latch = none := rfl
@[simp] theorem State.succeed_rc4 (s : State) (d : Nat) (out : List Byte) : (s.succeed d out).rc4 = none := rfl
@[simp] theorem State.succeed_cbc (s : State) (d : Nat) (out : List Byte) : (s.succeed d out).cbc = none := rfl
@[simp] theorem State.succeed_dmem (s : State) (d : Nat) (out : List Byte) : (s.succeed d out).dmem = Memory.writeBytes s.dmem d out := rfl
@[simp] theorem State.succeed_raceMark (s : State) (d : Nat) (out : List Byte) : (s.succeed d out).raceMark = s.raceMark := rfl
@[simp] theorem State.succeed_raced (s : State) (d : Nat) (out : List Byte) : (s.succeed d out).raced = false := rfl
@[simp] theorem State.succeed_entropyAnswers (s : State) (d : Nat) (out : List Byte) : (s.succeed d out).entropyAnswers = s.entropyAnswers := rfl
@[simp] theorem State.succeed_entropyDraws (s : State) (d : Nat) (out : List Byte) : (s.succeed d out).entropyDraws = s.entropyDraws := rfl
@[simp] theorem State.succeed_freeDraws (s : State) (d : Nat) (out : List Byte) : (s.succeed d out).freeDraws = s.freeDraws := rfl
@[simp] theorem State.succeed_inputs (s : State) (d : Nat) (out : List Byte) : (s.succeed d out).inputs = s.inputs := rfl
@[simp] theorem State.succeed_turns (s : State) (d : Nat) (out : List Byte) : (s.succeed d out).turns = s.turns := rfl
@[simp] theorem State.succeed_results (s : State) (d : Nat) (out : List Byte) : (s.succeed d out).results = s.results := rfl

/-! ### State.failWith -/

@[simp] theorem State.failWith_params (s : State) (e : CmdError) : (s.failWith e).params = s.params := rfl
@[simp] theorem State.failWith_ie (s : State) (e : CmdError) : (s.failWith e).ie = s.ie := rfl
@[simp] theorem State.failWith_busy (s : State) (e : CmdError) : (s.failWith e).busy = false := rfl
@[simp] theorem State.failWith_done (s : State) (e : CmdError) : (s.failWith e).done = true := rfl
@[simp] theorem State.failWith_ovr (s : State) (e : CmdError) : (s.failWith e).ovr = s.ovr := rfl
@[simp] theorem State.failWith_err (s : State) (e : CmdError) : (s.failWith e).err = e.code := rfl
@[simp] theorem State.failWith_src (s : State) (e : CmdError) : (s.failWith e).src = s.src := rfl
@[simp] theorem State.failWith_len (s : State) (e : CmdError) : (s.failWith e).len = s.len := rfl
@[simp] theorem State.failWith_key (s : State) (e : CmdError) : (s.failWith e).key = s.key := rfl
@[simp] theorem State.failWith_klen (s : State) (e : CmdError) : (s.failWith e).klen = s.klen := rfl
@[simp] theorem State.failWith_dst (s : State) (e : CmdError) : (s.failWith e).dst = s.dst := rfl
@[simp] theorem State.failWith_outlen (s : State) (e : CmdError) : (s.failWith e).outlen = 0#32 := rfl
@[simp] theorem State.failWith_cause (s : State) (e : CmdError) : (s.failWith e).cause = e.cause := rfl
@[simp] theorem State.failWith_latch (s : State) (e : CmdError) : (s.failWith e).latch = none := rfl
@[simp] theorem State.failWith_rc4 (s : State) (e : CmdError) : (s.failWith e).rc4 = none := rfl
@[simp] theorem State.failWith_cbc (s : State) (e : CmdError) : (s.failWith e).cbc = none := rfl
@[simp] theorem State.failWith_dmem (s : State) (e : CmdError) : (s.failWith e).dmem = s.dmem := rfl
@[simp] theorem State.failWith_raceMark (s : State) (e : CmdError) : (s.failWith e).raceMark = s.raceMark := rfl
@[simp] theorem State.failWith_raced (s : State) (e : CmdError) : (s.failWith e).raced = false := rfl
@[simp] theorem State.failWith_entropyAnswers (s : State) (e : CmdError) : (s.failWith e).entropyAnswers = s.entropyAnswers := rfl
@[simp] theorem State.failWith_entropyDraws (s : State) (e : CmdError) : (s.failWith e).entropyDraws = s.entropyDraws := rfl
@[simp] theorem State.failWith_freeDraws (s : State) (e : CmdError) : (s.failWith e).freeDraws = s.freeDraws := rfl
@[simp] theorem State.failWith_inputs (s : State) (e : CmdError) : (s.failWith e).inputs = s.inputs := rfl
@[simp] theorem State.failWith_turns (s : State) (e : CmdError) : (s.failWith e).turns = s.turns := rfl
@[simp] theorem State.failWith_results (s : State) (e : CmdError) : (s.failWith e).results = s.results := rfl

/-! ### State.acknowledge -/

@[simp] theorem State.acknowledge_params (s : State) (v : Word) : (s.acknowledge v).params = s.params := rfl
@[simp] theorem State.acknowledge_ie (s : State) (v : Word) : (s.acknowledge v).ie = s.ie := rfl
@[simp] theorem State.acknowledge_busy (s : State) (v : Word) : (s.acknowledge v).busy = s.busy := rfl
@[simp] theorem State.acknowledge_done (s : State) (v : Word) : (s.acknowledge v).done = (s.done && !v.getLsbD 1) := rfl
@[simp] theorem State.acknowledge_ovr (s : State) (v : Word) : (s.acknowledge v).ovr = (s.ovr && !v.getLsbD 2) := rfl
@[simp] theorem State.acknowledge_err (s : State) (v : Word) : (s.acknowledge v).err = s.err := rfl
@[simp] theorem State.acknowledge_src (s : State) (v : Word) : (s.acknowledge v).src = s.src := rfl
@[simp] theorem State.acknowledge_len (s : State) (v : Word) : (s.acknowledge v).len = s.len := rfl
@[simp] theorem State.acknowledge_key (s : State) (v : Word) : (s.acknowledge v).key = s.key := rfl
@[simp] theorem State.acknowledge_klen (s : State) (v : Word) : (s.acknowledge v).klen = s.klen := rfl
@[simp] theorem State.acknowledge_dst (s : State) (v : Word) : (s.acknowledge v).dst = s.dst := rfl
@[simp] theorem State.acknowledge_outlen (s : State) (v : Word) : (s.acknowledge v).outlen = s.outlen := rfl
@[simp] theorem State.acknowledge_cause (s : State) (v : Word) : (s.acknowledge v).cause = s.cause := rfl
@[simp] theorem State.acknowledge_latch (s : State) (v : Word) : (s.acknowledge v).latch = s.latch := rfl
@[simp] theorem State.acknowledge_rc4 (s : State) (v : Word) : (s.acknowledge v).rc4 = s.rc4 := rfl
@[simp] theorem State.acknowledge_cbc (s : State) (v : Word) : (s.acknowledge v).cbc = s.cbc := rfl
@[simp] theorem State.acknowledge_dmem (s : State) (v : Word) : (s.acknowledge v).dmem = s.dmem := rfl
@[simp] theorem State.acknowledge_raceMark (s : State) (v : Word) : (s.acknowledge v).raceMark = s.raceMark := rfl
@[simp] theorem State.acknowledge_raced (s : State) (v : Word) : (s.acknowledge v).raced = s.raced := rfl
@[simp] theorem State.acknowledge_entropyAnswers (s : State) (v : Word) : (s.acknowledge v).entropyAnswers = s.entropyAnswers := rfl
@[simp] theorem State.acknowledge_entropyDraws (s : State) (v : Word) : (s.acknowledge v).entropyDraws = s.entropyDraws := rfl
@[simp] theorem State.acknowledge_freeDraws (s : State) (v : Word) : (s.acknowledge v).freeDraws = s.freeDraws := rfl
@[simp] theorem State.acknowledge_inputs (s : State) (v : Word) : (s.acknowledge v).inputs = s.inputs := rfl
@[simp] theorem State.acknowledge_turns (s : State) (v : Word) : (s.acknowledge v).turns = s.turns := rfl
@[simp] theorem State.acknowledge_results (s : State) (v : Word) : (s.acknowledge v).results = s.results := rfl

/-! ### State.consumeEntropy -/

@[simp] theorem State.consumeEntropy_params (s : State) : s.consumeEntropy.params = s.params := rfl
@[simp] theorem State.consumeEntropy_ie (s : State) : s.consumeEntropy.ie = s.ie := rfl
@[simp] theorem State.consumeEntropy_busy (s : State) : s.consumeEntropy.busy = s.busy := rfl
@[simp] theorem State.consumeEntropy_done (s : State) : s.consumeEntropy.done = s.done := rfl
@[simp] theorem State.consumeEntropy_ovr (s : State) : s.consumeEntropy.ovr = s.ovr := rfl
@[simp] theorem State.consumeEntropy_err (s : State) : s.consumeEntropy.err = s.err := rfl
@[simp] theorem State.consumeEntropy_src (s : State) : s.consumeEntropy.src = s.src := rfl
@[simp] theorem State.consumeEntropy_len (s : State) : s.consumeEntropy.len = s.len := rfl
@[simp] theorem State.consumeEntropy_key (s : State) : s.consumeEntropy.key = s.key := rfl
@[simp] theorem State.consumeEntropy_klen (s : State) : s.consumeEntropy.klen = s.klen := rfl
@[simp] theorem State.consumeEntropy_dst (s : State) : s.consumeEntropy.dst = s.dst := rfl
@[simp] theorem State.consumeEntropy_outlen (s : State) : s.consumeEntropy.outlen = s.outlen := rfl
@[simp] theorem State.consumeEntropy_cause (s : State) : s.consumeEntropy.cause = s.cause := rfl
@[simp] theorem State.consumeEntropy_latch (s : State) : s.consumeEntropy.latch = s.latch := rfl
@[simp] theorem State.consumeEntropy_rc4 (s : State) : s.consumeEntropy.rc4 = s.rc4 := rfl
@[simp] theorem State.consumeEntropy_cbc (s : State) : s.consumeEntropy.cbc = s.cbc := rfl
@[simp] theorem State.consumeEntropy_dmem (s : State) : s.consumeEntropy.dmem = s.dmem := rfl
@[simp] theorem State.consumeEntropy_raceMark (s : State) : s.consumeEntropy.raceMark = s.raceMark := rfl
@[simp] theorem State.consumeEntropy_raced (s : State) : s.consumeEntropy.raced = s.raced := rfl
@[simp] theorem State.consumeEntropy_entropyAnswers (s : State) : s.consumeEntropy.entropyAnswers = s.entropyAnswers.tail := rfl
@[simp] theorem State.consumeEntropy_entropyDraws (s : State) : s.consumeEntropy.entropyDraws = s.entropyDraws + 1 := rfl
@[simp] theorem State.consumeEntropy_freeDraws (s : State) : s.consumeEntropy.freeDraws = s.freeDraws := rfl
@[simp] theorem State.consumeEntropy_inputs (s : State) : s.consumeEntropy.inputs = s.inputs := rfl
@[simp] theorem State.consumeEntropy_turns (s : State) : s.consumeEntropy.turns = s.turns := rfl
@[simp] theorem State.consumeEntropy_results (s : State) : s.consumeEntropy.results = s.results := rfl

/-! ### State.popTurn -/

@[simp] theorem State.popTurn_params (s : State) : s.popTurn.params = s.params := rfl
@[simp] theorem State.popTurn_ie (s : State) : s.popTurn.ie = s.ie := rfl
@[simp] theorem State.popTurn_busy (s : State) : s.popTurn.busy = s.busy := rfl
@[simp] theorem State.popTurn_done (s : State) : s.popTurn.done = s.done := rfl
@[simp] theorem State.popTurn_ovr (s : State) : s.popTurn.ovr = s.ovr := rfl
@[simp] theorem State.popTurn_err (s : State) : s.popTurn.err = s.err := rfl
@[simp] theorem State.popTurn_src (s : State) : s.popTurn.src = s.src := rfl
@[simp] theorem State.popTurn_len (s : State) : s.popTurn.len = s.len := rfl
@[simp] theorem State.popTurn_key (s : State) : s.popTurn.key = s.key := rfl
@[simp] theorem State.popTurn_klen (s : State) : s.popTurn.klen = s.klen := rfl
@[simp] theorem State.popTurn_dst (s : State) : s.popTurn.dst = s.dst := rfl
@[simp] theorem State.popTurn_outlen (s : State) : s.popTurn.outlen = s.outlen := rfl
@[simp] theorem State.popTurn_cause (s : State) : s.popTurn.cause = s.cause := rfl
@[simp] theorem State.popTurn_latch (s : State) : s.popTurn.latch = s.latch := rfl
@[simp] theorem State.popTurn_rc4 (s : State) : s.popTurn.rc4 = s.rc4 := rfl
@[simp] theorem State.popTurn_cbc (s : State) : s.popTurn.cbc = s.cbc := rfl
@[simp] theorem State.popTurn_dmem (s : State) : s.popTurn.dmem = s.dmem := rfl
@[simp] theorem State.popTurn_raceMark (s : State) : s.popTurn.raceMark = s.raceMark := rfl
@[simp] theorem State.popTurn_raced (s : State) : s.popTurn.raced = s.raced := rfl
@[simp] theorem State.popTurn_entropyAnswers (s : State) : s.popTurn.entropyAnswers = s.entropyAnswers := rfl
@[simp] theorem State.popTurn_entropyDraws (s : State) : s.popTurn.entropyDraws = s.entropyDraws := rfl
@[simp] theorem State.popTurn_freeDraws (s : State) : s.popTurn.freeDraws = s.freeDraws := rfl
@[simp] theorem State.popTurn_inputs (s : State) : s.popTurn.inputs = s.inputs := rfl
@[simp] theorem State.popTurn_turns (s : State) : s.popTurn.turns = s.turns.tail := rfl
@[simp] theorem State.popTurn_results (s : State) : s.popTurn.results = s.results := rfl

/-! ### State.advance -/

@[simp] theorem State.advance_params (s : State) (rest : List HostStmt) : (s.advance rest).params = s.params := rfl
@[simp] theorem State.advance_ie (s : State) (rest : List HostStmt) : (s.advance rest).ie = s.ie := rfl
@[simp] theorem State.advance_busy (s : State) (rest : List HostStmt) : (s.advance rest).busy = s.busy := rfl
@[simp] theorem State.advance_done (s : State) (rest : List HostStmt) : (s.advance rest).done = s.done := rfl
@[simp] theorem State.advance_ovr (s : State) (rest : List HostStmt) : (s.advance rest).ovr = s.ovr := rfl
@[simp] theorem State.advance_err (s : State) (rest : List HostStmt) : (s.advance rest).err = s.err := rfl
@[simp] theorem State.advance_src (s : State) (rest : List HostStmt) : (s.advance rest).src = s.src := rfl
@[simp] theorem State.advance_len (s : State) (rest : List HostStmt) : (s.advance rest).len = s.len := rfl
@[simp] theorem State.advance_key (s : State) (rest : List HostStmt) : (s.advance rest).key = s.key := rfl
@[simp] theorem State.advance_klen (s : State) (rest : List HostStmt) : (s.advance rest).klen = s.klen := rfl
@[simp] theorem State.advance_dst (s : State) (rest : List HostStmt) : (s.advance rest).dst = s.dst := rfl
@[simp] theorem State.advance_outlen (s : State) (rest : List HostStmt) : (s.advance rest).outlen = s.outlen := rfl
@[simp] theorem State.advance_cause (s : State) (rest : List HostStmt) : (s.advance rest).cause = s.cause := rfl
@[simp] theorem State.advance_latch (s : State) (rest : List HostStmt) : (s.advance rest).latch = s.latch := rfl
@[simp] theorem State.advance_rc4 (s : State) (rest : List HostStmt) : (s.advance rest).rc4 = s.rc4 := rfl
@[simp] theorem State.advance_cbc (s : State) (rest : List HostStmt) : (s.advance rest).cbc = s.cbc := rfl
@[simp] theorem State.advance_dmem (s : State) (rest : List HostStmt) : (s.advance rest).dmem = s.dmem := rfl
@[simp] theorem State.advance_raceMark (s : State) (rest : List HostStmt) : (s.advance rest).raceMark = s.raceMark := rfl
@[simp] theorem State.advance_raced (s : State) (rest : List HostStmt) : (s.advance rest).raced = s.raced := rfl
@[simp] theorem State.advance_entropyAnswers (s : State) (rest : List HostStmt) : (s.advance rest).entropyAnswers = s.entropyAnswers := rfl
@[simp] theorem State.advance_entropyDraws (s : State) (rest : List HostStmt) : (s.advance rest).entropyDraws = s.entropyDraws := rfl
@[simp] theorem State.advance_freeDraws (s : State) (rest : List HostStmt) : (s.advance rest).freeDraws = s.freeDraws := rfl
@[simp] theorem State.advance_inputs (s : State) (rest : List HostStmt) : (s.advance rest).inputs = rest := rfl
@[simp] theorem State.advance_turns (s : State) (rest : List HostStmt) : (s.advance rest).turns = s.turns := rfl
@[simp] theorem State.advance_results (s : State) (rest : List HostStmt) : (s.advance rest).results = s.results := rfl

/-! ### State.report -/

@[simp] theorem State.report_params (s : State) (r : HostResult) : (s.report r).params = s.params := rfl
@[simp] theorem State.report_ie (s : State) (r : HostResult) : (s.report r).ie = s.ie := rfl
@[simp] theorem State.report_busy (s : State) (r : HostResult) : (s.report r).busy = s.busy := rfl
@[simp] theorem State.report_done (s : State) (r : HostResult) : (s.report r).done = s.done := rfl
@[simp] theorem State.report_ovr (s : State) (r : HostResult) : (s.report r).ovr = s.ovr := rfl
@[simp] theorem State.report_err (s : State) (r : HostResult) : (s.report r).err = s.err := rfl
@[simp] theorem State.report_src (s : State) (r : HostResult) : (s.report r).src = s.src := rfl
@[simp] theorem State.report_len (s : State) (r : HostResult) : (s.report r).len = s.len := rfl
@[simp] theorem State.report_key (s : State) (r : HostResult) : (s.report r).key = s.key := rfl
@[simp] theorem State.report_klen (s : State) (r : HostResult) : (s.report r).klen = s.klen := rfl
@[simp] theorem State.report_dst (s : State) (r : HostResult) : (s.report r).dst = s.dst := rfl
@[simp] theorem State.report_outlen (s : State) (r : HostResult) : (s.report r).outlen = s.outlen := rfl
@[simp] theorem State.report_cause (s : State) (r : HostResult) : (s.report r).cause = s.cause := rfl
@[simp] theorem State.report_latch (s : State) (r : HostResult) : (s.report r).latch = s.latch := rfl
@[simp] theorem State.report_rc4 (s : State) (r : HostResult) : (s.report r).rc4 = s.rc4 := rfl
@[simp] theorem State.report_cbc (s : State) (r : HostResult) : (s.report r).cbc = s.cbc := rfl
@[simp] theorem State.report_dmem (s : State) (r : HostResult) : (s.report r).dmem = s.dmem := rfl
@[simp] theorem State.report_raceMark (s : State) (r : HostResult) : (s.report r).raceMark = s.raceMark := rfl
@[simp] theorem State.report_raced (s : State) (r : HostResult) : (s.report r).raced = s.raced := rfl
@[simp] theorem State.report_entropyAnswers (s : State) (r : HostResult) : (s.report r).entropyAnswers = s.entropyAnswers := rfl
@[simp] theorem State.report_entropyDraws (s : State) (r : HostResult) : (s.report r).entropyDraws = s.entropyDraws := rfl
@[simp] theorem State.report_freeDraws (s : State) (r : HostResult) : (s.report r).freeDraws = s.freeDraws := rfl
@[simp] theorem State.report_inputs (s : State) (r : HostResult) : (s.report r).inputs = s.inputs := rfl
@[simp] theorem State.report_turns (s : State) (r : HostResult) : (s.report r).turns = s.turns := rfl
@[simp] theorem State.report_results (s : State) (r : HostResult) : (s.report r).results = r :: s.results := rfl

/-! ### State.hostStore -/

@[simp] theorem State.hostStore_params (s : State) (a : Nat) (b : Byte) : (s.hostStore a b).params = s.params := rfl
@[simp] theorem State.hostStore_ie (s : State) (a : Nat) (b : Byte) : (s.hostStore a b).ie = s.ie := rfl
@[simp] theorem State.hostStore_busy (s : State) (a : Nat) (b : Byte) : (s.hostStore a b).busy = s.busy := rfl
@[simp] theorem State.hostStore_done (s : State) (a : Nat) (b : Byte) : (s.hostStore a b).done = s.done := rfl
@[simp] theorem State.hostStore_ovr (s : State) (a : Nat) (b : Byte) : (s.hostStore a b).ovr = s.ovr := rfl
@[simp] theorem State.hostStore_err (s : State) (a : Nat) (b : Byte) : (s.hostStore a b).err = s.err := rfl
@[simp] theorem State.hostStore_src (s : State) (a : Nat) (b : Byte) : (s.hostStore a b).src = s.src := rfl
@[simp] theorem State.hostStore_len (s : State) (a : Nat) (b : Byte) : (s.hostStore a b).len = s.len := rfl
@[simp] theorem State.hostStore_key (s : State) (a : Nat) (b : Byte) : (s.hostStore a b).key = s.key := rfl
@[simp] theorem State.hostStore_klen (s : State) (a : Nat) (b : Byte) : (s.hostStore a b).klen = s.klen := rfl
@[simp] theorem State.hostStore_dst (s : State) (a : Nat) (b : Byte) : (s.hostStore a b).dst = s.dst := rfl
@[simp] theorem State.hostStore_outlen (s : State) (a : Nat) (b : Byte) : (s.hostStore a b).outlen = s.outlen := rfl
@[simp] theorem State.hostStore_cause (s : State) (a : Nat) (b : Byte) : (s.hostStore a b).cause = s.cause := rfl
@[simp] theorem State.hostStore_latch (s : State) (a : Nat) (b : Byte) : (s.hostStore a b).latch = s.latch := rfl
@[simp] theorem State.hostStore_rc4 (s : State) (a : Nat) (b : Byte) : (s.hostStore a b).rc4 = s.rc4 := rfl
@[simp] theorem State.hostStore_cbc (s : State) (a : Nat) (b : Byte) : (s.hostStore a b).cbc = s.cbc := rfl
@[simp] theorem State.hostStore_dmem (s : State) (a : Nat) (b : Byte) : (s.hostStore a b).dmem = Memory.write s.dmem a b := rfl
@[simp] theorem State.hostStore_raceMark (s : State) (a : Nat) (b : Byte) : (s.hostStore a b).raceMark = (s.raceMark || s.owns a) := rfl
@[simp] theorem State.hostStore_raced (s : State) (a : Nat) (b : Byte) : (s.hostStore a b).raced = (s.raced || s.owns a) := rfl
@[simp] theorem State.hostStore_entropyAnswers (s : State) (a : Nat) (b : Byte) : (s.hostStore a b).entropyAnswers = s.entropyAnswers := rfl
@[simp] theorem State.hostStore_entropyDraws (s : State) (a : Nat) (b : Byte) : (s.hostStore a b).entropyDraws = s.entropyDraws := rfl
@[simp] theorem State.hostStore_freeDraws (s : State) (a : Nat) (b : Byte) : (s.hostStore a b).freeDraws = s.freeDraws := rfl
@[simp] theorem State.hostStore_inputs (s : State) (a : Nat) (b : Byte) : (s.hostStore a b).inputs = s.inputs := rfl
@[simp] theorem State.hostStore_turns (s : State) (a : Nat) (b : Byte) : (s.hostStore a b).turns = s.turns := rfl
@[simp] theorem State.hostStore_results (s : State) (a : Nat) (b : Byte) : (s.hostStore a b).results = s.results := rfl

/-! ### State.ksaPhase -/

@[simp] theorem State.ksaPhase_params (s : State) (K : List Byte) : (s.ksaPhase K).params = s.params := rfl
@[simp] theorem State.ksaPhase_ie (s : State) (K : List Byte) : (s.ksaPhase K).ie = s.ie := rfl
@[simp] theorem State.ksaPhase_busy (s : State) (K : List Byte) : (s.ksaPhase K).busy = s.busy := rfl
@[simp] theorem State.ksaPhase_done (s : State) (K : List Byte) : (s.ksaPhase K).done = s.done := rfl
@[simp] theorem State.ksaPhase_ovr (s : State) (K : List Byte) : (s.ksaPhase K).ovr = s.ovr := rfl
@[simp] theorem State.ksaPhase_err (s : State) (K : List Byte) : (s.ksaPhase K).err = s.err := rfl
@[simp] theorem State.ksaPhase_src (s : State) (K : List Byte) : (s.ksaPhase K).src = s.src := rfl
@[simp] theorem State.ksaPhase_len (s : State) (K : List Byte) : (s.ksaPhase K).len = s.len := rfl
@[simp] theorem State.ksaPhase_key (s : State) (K : List Byte) : (s.ksaPhase K).key = s.key := rfl
@[simp] theorem State.ksaPhase_klen (s : State) (K : List Byte) : (s.ksaPhase K).klen = s.klen := rfl
@[simp] theorem State.ksaPhase_dst (s : State) (K : List Byte) : (s.ksaPhase K).dst = s.dst := rfl
@[simp] theorem State.ksaPhase_outlen (s : State) (K : List Byte) : (s.ksaPhase K).outlen = s.outlen := rfl
@[simp] theorem State.ksaPhase_cause (s : State) (K : List Byte) : (s.ksaPhase K).cause = s.cause := rfl
@[simp] theorem State.ksaPhase_latch (s : State) (K : List Byte) : (s.ksaPhase K).latch = s.latch := rfl
@[simp] theorem State.ksaPhase_rc4 (s : State) (K : List Byte) : (s.ksaPhase K).rc4 = some (.ksa (ksaRun K 256)) := rfl
@[simp] theorem State.ksaPhase_cbc (s : State) (K : List Byte) : (s.ksaPhase K).cbc = s.cbc := rfl
@[simp] theorem State.ksaPhase_dmem (s : State) (K : List Byte) : (s.ksaPhase K).dmem = s.dmem := rfl
@[simp] theorem State.ksaPhase_raceMark (s : State) (K : List Byte) : (s.ksaPhase K).raceMark = s.raceMark := rfl
@[simp] theorem State.ksaPhase_raced (s : State) (K : List Byte) : (s.ksaPhase K).raced = s.raced := rfl
@[simp] theorem State.ksaPhase_entropyAnswers (s : State) (K : List Byte) : (s.ksaPhase K).entropyAnswers = s.entropyAnswers := rfl
@[simp] theorem State.ksaPhase_entropyDraws (s : State) (K : List Byte) : (s.ksaPhase K).entropyDraws = s.entropyDraws := rfl
@[simp] theorem State.ksaPhase_freeDraws (s : State) (K : List Byte) : (s.ksaPhase K).freeDraws = s.freeDraws := rfl
@[simp] theorem State.ksaPhase_inputs (s : State) (K : List Byte) : (s.ksaPhase K).inputs = s.inputs := rfl
@[simp] theorem State.ksaPhase_turns (s : State) (K : List Byte) : (s.ksaPhase K).turns = s.turns := rfl
@[simp] theorem State.ksaPhase_results (s : State) (K : List Byte) : (s.ksaPhase K).results = s.results := rfl

/-! ### State.startChain -/

@[simp] theorem State.startChain_params (s : State) (iv : Block) : (s.startChain iv).params = s.params := rfl
@[simp] theorem State.startChain_ie (s : State) (iv : Block) : (s.startChain iv).ie = s.ie := rfl
@[simp] theorem State.startChain_busy (s : State) (iv : Block) : (s.startChain iv).busy = s.busy := rfl
@[simp] theorem State.startChain_done (s : State) (iv : Block) : (s.startChain iv).done = s.done := rfl
@[simp] theorem State.startChain_ovr (s : State) (iv : Block) : (s.startChain iv).ovr = s.ovr := rfl
@[simp] theorem State.startChain_err (s : State) (iv : Block) : (s.startChain iv).err = s.err := rfl
@[simp] theorem State.startChain_src (s : State) (iv : Block) : (s.startChain iv).src = s.src := rfl
@[simp] theorem State.startChain_len (s : State) (iv : Block) : (s.startChain iv).len = s.len := rfl
@[simp] theorem State.startChain_key (s : State) (iv : Block) : (s.startChain iv).key = s.key := rfl
@[simp] theorem State.startChain_klen (s : State) (iv : Block) : (s.startChain iv).klen = s.klen := rfl
@[simp] theorem State.startChain_dst (s : State) (iv : Block) : (s.startChain iv).dst = s.dst := rfl
@[simp] theorem State.startChain_outlen (s : State) (iv : Block) : (s.startChain iv).outlen = s.outlen := rfl
@[simp] theorem State.startChain_cause (s : State) (iv : Block) : (s.startChain iv).cause = s.cause := rfl
@[simp] theorem State.startChain_latch (s : State) (iv : Block) : (s.startChain iv).latch = s.latch := rfl
@[simp] theorem State.startChain_rc4 (s : State) (iv : Block) : (s.startChain iv).rc4 = s.rc4 := rfl
@[simp] theorem State.startChain_cbc (s : State) (iv : Block) : (s.startChain iv).cbc = some ⟨iv, 0⟩ := rfl
@[simp] theorem State.startChain_dmem (s : State) (iv : Block) : (s.startChain iv).dmem = s.dmem := rfl
@[simp] theorem State.startChain_raceMark (s : State) (iv : Block) : (s.startChain iv).raceMark = s.raceMark := rfl
@[simp] theorem State.startChain_raced (s : State) (iv : Block) : (s.startChain iv).raced = s.raced := rfl
@[simp] theorem State.startChain_entropyAnswers (s : State) (iv : Block) : (s.startChain iv).entropyAnswers = s.entropyAnswers := rfl
@[simp] theorem State.startChain_entropyDraws (s : State) (iv : Block) : (s.startChain iv).entropyDraws = s.entropyDraws := rfl
@[simp] theorem State.startChain_freeDraws (s : State) (iv : Block) : (s.startChain iv).freeDraws = s.freeDraws := rfl
@[simp] theorem State.startChain_inputs (s : State) (iv : Block) : (s.startChain iv).inputs = s.inputs := rfl
@[simp] theorem State.startChain_turns (s : State) (iv : Block) : (s.startChain iv).turns = s.turns := rfl
@[simp] theorem State.startChain_results (s : State) (iv : Block) : (s.startChain iv).results = s.results := rfl

end Sys2Proof.Machine
end

