-- ==== Sys2Proof/Laws/Ops.lean ====
section
/-! SUPPORT. What each shared operation of a command can do: reading a window, drawing entropy, completing. -/

namespace Sys2Proof.Machine

@[simp] theorem length_freeBytes (env : Environment) (c n : Nat) : (freeBytes env c n).length = n := by
  simp [freeBytes]

/-- A command that has not raced reads DMEM. -/
theorem State.readWindow_unraced {env : Environment} {w : Window} {s : State} (h : s.raced = false) :
    s.readWindow env w = (Memory.readBytes env s.dmem w.start w.size, s) := by
  simp [State.readWindow, h]

@[simp] theorem State.length_readWindow (env : Environment) (w : Window) (s : State) :
    (s.readWindow env w).1.length = w.size := by
  unfold State.readWindow
  split <;> simp

/-- Reading a window changes at most the count of free bytes, and that only when the command has raced. -/
theorem State.readWindow_state (env : Environment) (w : Window) (s : State) :
    ∃ f, (s.readWindow env w).2 = { s with freeDraws := f } ∧ (s.raced = false → f = s.freeDraws) := by
  unfold State.readWindow
  split
  · exact ⟨_, rfl, by simp_all⟩
  · exact ⟨s.freeDraws, rfl, fun _ => rfl⟩

/-- A command that has not raced writes its output. -/
theorem State.outputBytes_unraced {env : Environment} {out : List Byte} {s : State} (h : s.raced = false) :
    s.outputBytes env out = (out, s) := by
  simp [State.outputBytes, h]

@[simp] theorem State.length_outputBytes (env : Environment) (out : List Byte) (s : State) :
    (s.outputBytes env out).1.length = out.length := by
  unfold State.outputBytes
  split <;> simp

/-- Writing the output changes at most the count of free bytes, and that only when the command has raced. -/
theorem State.outputBytes_state (env : Environment) (out : List Byte) (s : State) :
    ∃ f, (s.outputBytes env out).2 = { s with freeDraws := f } ∧ (s.raced = false → f = s.freeDraws) := by
  unfold State.outputBytes
  split
  · exact ⟨_, rfl, by simp_all⟩
  · exact ⟨s.freeDraws, rfl, fun _ => rfl⟩

/-- An answer has exactly the bytes asked for (R121). -/
theorem State.length_entropyAnswer {env : Environment} {n : Nat} {s : State} {r : List Byte}
    (h : s.entropyAnswer env n = some r) : r.length = n := by
  unfold State.entropyAnswer at h
  split at h
  · cases h
  · cases h; simp
  · split at h
    · cases h
    · cases h; simp

/-- What a run of a command may leave of the state beside its answer: hidden state and draws, no register and no DMEM. -/
def State.sameButHidden (s s' : State) : Prop :=
  ∃ r c q d f, s' = { s with rc4 := r, cbc := c, entropyAnswers := q, entropyDraws := d, freeDraws := f }

/-- The state the output is written from. -/
theorem State.sameButHidden.outputBytes {s s' : State} (h : s.sameButHidden s') (env : Environment) (out : List Byte) :
    s.sameButHidden (s'.outputBytes env out).2 := by
  obtain ⟨r, c, q, e, f, rfl⟩ := h
  obtain ⟨g, hg, -⟩ := State.outputBytes_state env out
    { s with rc4 := r, cbc := c, entropyAnswers := q, entropyDraws := e, freeDraws := f }
  rw [hg]
  exact ⟨r, c, q, e, g, rfl⟩

theorem State.sameButHidden.succeed_eq {s s' : State} (h : s.sameButHidden s') (d : Nat) (out : List Byte) :
    s'.succeed d out = { s.succeed d out with
      entropyAnswers := s'.entropyAnswers, entropyDraws := s'.entropyDraws, freeDraws := s'.freeDraws } := by
  obtain ⟨r, c, q, e, f, rfl⟩ := h
  rfl

theorem State.sameButHidden.failWith_eq {s s' : State} (h : s.sameButHidden s') (e : CmdError) :
    s'.failWith e = { s.failWith e with
      entropyAnswers := s'.entropyAnswers, entropyDraws := s'.entropyDraws, freeDraws := s'.freeDraws } := by
  obtain ⟨r, c, q, d, f, rfl⟩ := h
  rfl

/-- What a completion can be (R105): a failed check, an error of the run, or a success. -/
theorem complete_cases (env : Environment) (i : Instr) (run : Run) (L : Latch) (s : State) :
    (∃ e, checkError s.params i L = some e ∧ complete env i run L s = s.failWith e) ∨
    (∃ e, checkError s.params i L = none ∧ (run env L s).1 = .error e ∧
      complete env i run L s = (run env L s).2.failWith e) ∨
    (∃ out, checkError s.params i L = none ∧ (run env L s).1 = .ok out ∧
      complete env i run L s = ((run env L s).2.outputBytes env out).2.succeed L.dst.toNat
        ((run env L s).2.outputBytes env out).1) := by
  unfold complete
  cases hc : checkError s.params i L with
  | some e => exact .inl ⟨e, rfl, rfl⟩
  | none =>
    rcases hr : run env L s with ⟨r, s'⟩
    cases r with
    | error e => exact .inr (.inl ⟨e, rfl, rfl, rfl⟩)
    | ok out => exact .inr (.inr ⟨out, rfl, rfl, rfl⟩)

/-- A completion answers a next state exactly when a command is latched, and then it is `complete`. -/
theorem completeLatched_of_latch {env : Environment} {i : Instr} {run : Run} {s : State} {L : Latch}
    (h : s.latch = some L) : completeLatched env i run s = .next (complete env i run L s) := by
  simp [completeLatched, h]

theorem completeLatched_next {env : Environment} {i : Instr} {run : Run} {s t : State}
    (h : completeLatched env i run s = .next t) : ∃ L, s.latch = some L ∧ t = complete env i run L s := by
  unfold completeLatched at h
  split at h
  · cases h
  · rename_i L hL
    exact ⟨L, hL, by cases h; rfl⟩

end Sys2Proof.Machine
end

