-- ==== Sys2Proof/Laws/Families.lean ====
section
/-! SUPPORT. The laws of the transforms: lengths, the XOR datapath, the RC4 machine, padding and chaining; and what each command's run leaves of the state. -/

namespace Sys2Proof.Machine

/-! ### XOR -/

@[simp] theorem length_xorBytes (a b : List Byte) : (xorBytes a b).length = min a.length b.length := by
  simp [xorBytes]

/-- The datapath cancels itself (R132). -/
theorem xorByte_cancel (a b : Byte) : xorByte (xorByte a b) b = a := by
  simp [xorByte]

/-! ### RC4 -/

/-- What an exchange leaves at each index. -/
theorem SBox.at_swap (S : SBox) (x y z : Byte) :
    SBox.at (SBox.swap S x y) z = if z = y then SBox.at S x else if z = x then SBox.at S y else SBox.at S z := by
  simp only [SBox.at, SBox.swap, Vector.getElem_set]
  by_cases hy : z = y
  · simp [hy]
  · have hy' : ¬y.toNat = z.toNat := fun h => hy (BitVec.eq_of_toNat_eq h.symm)
    by_cases hx : z = x
    · subst hx
      simp [hy', hy]
    · have hx' : ¬x.toNat = z.toNat := fun h => hx (BitVec.eq_of_toNat_eq h.symm)
      simp [hy, hy', hx, hx']

@[simp] theorem SBox.at_identity (x : Byte) : SBox.at SBox.identity x = x := by
  simp [SBox.at, SBox.identity]

@[simp] theorem ksaRun_n (K : List Byte) (m : Nat) : (ksaRun K m).n = m := by
  induction m with
  | zero => rfl
  | succ m ih => simp [ksaRun, ksaStep, ih]

theorem prgaRun_cons (st : PrgaState) (p : Byte) (D : List Byte) :
    prgaRun st (p :: D) = prgaRun (prgaStep st p) D := rfl

@[simp] theorem prgaRun_nil (st : PrgaState) : prgaRun st [] = st := rfl

/-- The PRGA puts out one byte for each data byte (R146). -/
theorem length_prgaRun_out (D : List Byte) (st : PrgaState) :
    (prgaRun st D).out.length = st.out.length + D.length := by
  induction D generalizing st with
  | nil => simp
  | cons p D ih =>
    rw [prgaRun_cons, ih]
    simp [prgaStep]
    omega

@[simp] theorem length_prga (S : SBox) (D : List Byte) : (prga S D).length = D.length := by
  simp [prga, length_prgaRun_out, PrgaState.start]

/-! ### Blocks, padding and chaining -/

@[simp] theorem Block.length_bytes (b : Block) : (Block.bytes b).length = 16 := by
  simp [Block.bytes]

/-- Byte i of block m of a sequence. -/
theorem blockAt_getElem (l : List Byte) (m i : Nat) (h : i < 16) : (blockAt l m)[i] = l.getD (16 * m + i) 0#8 := by
  simp [blockAt]

/-- The first block of a block's own bytes is that block. -/
theorem blockAt_bytes_append (b : Block) (l : List Byte) : blockAt (Block.bytes b ++ l) 0 = b := by
  refine Vector.ext fun i h => ?_
  rw [blockAt_getElem _ _ _ h]
  have hb : i < (Block.bytes b).length := by simpa using h
  rw [List.getD_eq_getElem?_getD, Nat.mul_zero, Nat.zero_add, List.getElem?_append_left hb,
    List.getElem?_eq_getElem hb]
  simp [Block.bytes]

/-- The blocks after the first are those of the rest. -/
theorem blockAt_bytes_append_succ (b : Block) (l : List Byte) (m : Nat) :
    blockAt (Block.bytes b ++ l) (m + 1) = blockAt l m := by
  refine Vector.ext fun i h => ?_
  rw [blockAt_getElem _ _ _ h, blockAt_getElem _ _ _ h]
  simp only [List.getD_eq_getElem?_getD]
  rw [List.getElem?_append_right (by simp; omega)]
  simp only [Block.length_bytes]
  congr 2
  omega

@[simp] theorem length_blocksOf (l : List Byte) : (blocksOf l).length = l.length / 16 := by
  simp [blocksOf]

theorem length_cbcEncLoop (E : Block → Block) (st : CbcState) (bs : List Block) :
    (cbcEncLoop E st bs).1.length = 16 * bs.length := by
  induction bs generalizing st with
  | nil => rfl
  | cons b bs ih => simp [cbcEncLoop, ih]; omega

theorem length_cbcDecLoop (D : Block → Block) (st : CbcState) (cs : List Block) :
    (cbcDecLoop D st cs).1.length = 16 * cs.length := by
  induction cs generalizing st with
  | nil => rfl
  | cons c cs ih => simp [cbcDecLoop, ih]; omega

@[simp] theorem length_pad (P : List Byte) : (pad P).length = 16 * (P.length / 16 + 1) := by
  simp [pad, padCount]
  omega

/-- A count the validator accepts is in [1, 16] (R171). -/
theorem padCheck_ok {B : Block} {N : Nat} (h : padCheck B = .ok N) : 1 ≤ N ∧ N ≤ 16 := by
  simp only [padCheck] at h
  split at h
  · cases h
  · split at h
    · cases h
    · cases h
      omega

/-- The validator raises the two padding errors only (R171). -/
theorem padCheck_error {B : Block} {e : CmdError} (h : padCheck B = .error e) :
    e = .paddingCount ∨ e = .paddingBytes := by
  simp only [padCheck] at h
  split at h
  · cases h; exact .inl rfl
  · split at h
    · cases h; exact .inr rfl
    · cases h

/-! ### What a run leaves of the state, and how long its output is -/

theorem runGenkey_eq (env : Environment) (L : Latch) (s : State) :
    runGenkey env L s = match s.entropyAnswer env L.len.toNat with
      | none => (.error .entropyExhausted, s.consumeEntropy)
      | some r => (.ok r, s.consumeEntropy) := by
  unfold runGenkey State.drawEntropy
  cases s.entropyAnswer env L.len.toNat <;> rfl

theorem runGenkey_state (env : Environment) (L : Latch) (s : State) :
    (runGenkey env L s).2 = s.consumeEntropy := by
  rw [runGenkey_eq]
  cases s.entropyAnswer env L.len.toNat <;> rfl

theorem runGenkey_same (env : Environment) (L : Latch) (s : State) : s.sameButHidden (runGenkey env L s).2 := by
  rw [runGenkey_state]
  exact ⟨_, _, _, _, _, rfl⟩

theorem runXor_eq (env : Environment) (L : Latch) (s : State) :
    runXor env L s =
      (.ok (xorBytes (s.readWindow env (windows .xor L).source).1
        ((s.readWindow env (windows .xor L).source).2.readWindow env (windows .xor L).key).1),
        ((s.readWindow env (windows .xor L).source).2.readWindow env (windows .xor L).key).2) := rfl

/-- Two windows read one after the other change at most the count of free bytes. -/
theorem State.readWindow_twice (env : Environment) (v w : Window) (s : State) :
    ∃ f, ((s.readWindow env v).2.readWindow env w).2 = { s with freeDraws := f } ∧
      (s.raced = false → f = s.freeDraws) := by
  obtain ⟨f, hf, h⟩ := State.readWindow_state env v s
  obtain ⟨g, hg, h'⟩ := State.readWindow_state env w (s.readWindow env v).2
  refine ⟨g, ?_, fun hr => ?_⟩
  · rw [hg, hf]
  · rw [hf] at h'
    exact (h' hr).trans (h hr)

theorem runXor_same (env : Environment) (L : Latch) (s : State) : s.sameButHidden (runXor env L s).2 := by
  obtain ⟨f, h, -⟩ := State.readWindow_twice env (windows .xor L).source (windows .xor L).key s
  exact ⟨_, _, _, _, f, h⟩

theorem State.rc4Output_phases (K D : List Byte) (s : State) :
    ((s.ksaPhase K).prgaPhase D).rc4Output = prga (ksa K) D := rfl

theorem runRc4_eq (env : Environment) (L : Latch) (s : State) :
    runRc4 env L s =
      (.ok (prga (ksa (s.readWindow env (windows .rc4 L).key).1)
        ((s.readWindow env (windows .rc4 L).key).2.readWindow env (windows .rc4 L).source).1),
        (((s.readWindow env (windows .rc4 L).key).2.readWindow env (windows .rc4 L).source).2.ksaPhase
          (s.readWindow env (windows .rc4 L).key).1).prgaPhase
          ((s.readWindow env (windows .rc4 L).key).2.readWindow env (windows .rc4 L).source).1) := rfl

theorem runRc4_same (env : Environment) (L : Latch) (s : State) : s.sameButHidden (runRc4 env L s).2 := by
  obtain ⟨f, h, -⟩ := State.readWindow_twice env (windows .rc4 L).key (windows .rc4 L).source s
  rw [runRc4_eq, h]
  exact ⟨_, _, _, _, f, rfl⟩

theorem State.encryptChain_startChain (E : Block → Block) (iv : Block) (Q : List Byte) (s : State) :
    (s.startChain iv).encryptChain E Q =
      (cbcEnc E iv Q, { s with cbc := some (cbcEncLoop E ⟨iv, 0⟩ (blocksOf Q)).2 }) := rfl

theorem State.decryptChain_startChain (D : Block → Block) (iv : Block) (C : List Byte) (s : State) :
    (s.startChain iv).decryptChain D C =
      (cbcDec D iv C, { s with cbc := some (cbcDecLoop D ⟨iv, 0⟩ (blocksOf C)).2 }) := rfl

@[simp] theorem length_cbcEnc (E : Block → Block) (iv : Block) (Q : List Byte) :
    (cbcEnc E iv Q).length = 16 * (Q.length / 16) := by
  simp [cbcEnc, length_cbcEncLoop]

@[simp] theorem length_cbcDec (D : Block → Block) (iv : Block) (C : List Byte) :
    (cbcDec D iv C).length = 16 * (C.length / 16) := by
  simp [cbcDec, length_cbcDecLoop]

/-- The answer of CBCENC's run and the state it leaves, by the answer of its draw (R174). -/
theorem runCbcenc_eq (env : Environment) (L : Latch) (s s₁ s₂ : State) (k P : List Byte)
    (hk : s.readWindow env (windows .cbcenc L).key = (k, s₁))
    (hP : s₁.readWindow env (windows .cbcenc L).source = (P, s₂)) :
    runCbcenc env L s = match s₂.entropyAnswer env 16 with
      | none => (.error .entropyExhausted, s₂.consumeEntropy)
      | some iv =>
        (.ok (iv ++ cbcEnc (env.encryptBlock s.params k) (blockAt iv 0) (pad P)),
          { s₂.consumeEntropy with
            cbc := some (cbcEncLoop (env.encryptBlock s.params k) ⟨blockAt iv 0, 0⟩ (blocksOf (pad P))).2 }) := by
  simp only [runCbcenc, State.drawEntropy, hk, hP]
  cases s₂.entropyAnswer env 16 <;> rfl

theorem runCbcenc_same (env : Environment) (L : Latch) (s : State) : s.sameButHidden (runCbcenc env L s).2 := by
  obtain ⟨f, h, -⟩ := State.readWindow_twice env (windows .cbcenc L).key (windows .cbcenc L).source s
  rcases hk : s.readWindow env (windows .cbcenc L).key with ⟨k, s₁⟩
  rcases hs : s₁.readWindow env (windows .cbcenc L).source with ⟨d, s₂⟩
  rw [runCbcenc_eq env L s s₁ s₂ k d hk hs]
  simp only [hk, hs] at h
  subst h
  split <;> exact ⟨_, _, _, _, f, rfl⟩

/-- The answer of CBCDEC's run and the state it leaves, by the validator's answer (R175). -/
theorem runCbcdec_eq (env : Environment) (L : Latch) (s s₁ s₂ : State) (k Bl : List Byte)
    (hk : s.readWindow env (windows .cbcdec L).key = (k, s₁))
    (hB : s₁.readWindow env (windows .cbcdec L).source = (Bl, s₂)) :
    runCbcdec env L s =
      match padCheck (lastPlainBlock (env.decryptBlock s.params k) (blockAt Bl 0) (Bl.drop 16)) with
      | .error e => (.error e, s₂)
      | .ok N =>
        (.ok ((cbcDec (env.decryptBlock s.params k) (blockAt Bl 0) (Bl.drop 16)).take ((Bl.drop 16).length - N)),
          { s₂ with
            cbc := some (cbcDecLoop (env.decryptBlock s.params k) ⟨blockAt Bl 0, 0⟩ (blocksOf (Bl.drop 16))).2 }) := by
  simp only [runCbcdec, hk, hB]
  cases padCheck (lastPlainBlock (env.decryptBlock s.params k) (blockAt Bl 0) (Bl.drop 16)) <;> rfl

theorem runCbcdec_same (env : Environment) (L : Latch) (s : State) : s.sameButHidden (runCbcdec env L s).2 := by
  obtain ⟨f, h, -⟩ := State.readWindow_twice env (windows .cbcdec L).key (windows .cbcdec L).source s
  rcases hk : s.readWindow env (windows .cbcdec L).key with ⟨k, s₁⟩
  rcases hs : s₁.readWindow env (windows .cbcdec L).source with ⟨d, s₂⟩
  rw [runCbcdec_eq env L s s₁ s₂ k d hk hs]
  simp only [hk, hs] at h
  subst h
  split
  · exact ⟨_, _, _, _, f, rfl⟩
  · exact ⟨_, _, _, _, f, rfl⟩

end Sys2Proof.Machine
end

