-- ==== Sys2Proof/Laws/Commands.lean ====
section
/-! SUPPORT. What the meaning of a command can do, once for all five: it answers a next state exactly when a command is latched, and that state is a failed check, an error of the run, or a success whose output fits the destination window. -/

namespace Sys2Proof.Machine

/-- The `run_op` of each command. -/
def runOf : Instr → Run
  | .genkey => runGenkey
  | .xor => runXor
  | .rc4 => runRc4
  | .cbcenc => runCbcenc
  | .cbcdec => runCbcdec

theorem exec_eq_completeLatched (i : Instr) (s : State) : exec i s = completeLatched Config.env i (runOf i) s := by
  cases i <;> rfl

/-- With a latch, a command answers a next state (R104). -/
theorem exec_of_latch {s : State} {L : Latch} (h : s.latch = some L) (i : Instr) :
    exec i s = .next (complete Config.env i (runOf i) L s) := by
  rw [exec_eq_completeLatched, completeLatched_of_latch h]

/-- A next state of a command is the completion of the latch. -/
theorem exec_next {i : Instr} {s t : State} (h : exec i s = .next t) :
    ∃ L, s.latch = some L ∧ t = complete Config.env i (runOf i) L s :=
  completeLatched_next ((exec_eq_completeLatched i s).symm.trans h)

/-- The meanings of the commands are those of the five definitions in the machine's environment. -/
theorem exec_eq_execWith (i : Instr) (s : State) : exec i s = execWith Config.env i s := by
  cases i <;> rfl

theorem runOf_same (i : Instr) (env : Environment) (L : Latch) (s : State) : s.sameButHidden (runOf i env L s).2 := by
  cases i
  · exact runGenkey_same env L s
  · exact runXor_same env L s
  · exact runRc4_same env L s
  · exact runCbcenc_same env L s
  · exact runCbcdec_same env L s

/-- What a command that has not raced answers, closed form: a failed check, an error of its run, or its output written. -/
theorem exec_unraced {s : State} {L : Latch} (hL : s.latch = some L) (hr : s.raced = false) (i : Instr) :
    exec i s = .next (match checkError s.params i L with
      | some e => s.failWith e
      | none => match (runOf i Config.env L s).1 with
        | .error e => (runOf i Config.env L s).2.failWith e
        | .ok out => (runOf i Config.env L s).2.succeed L.dst.toNat out) := by
  have hr' : (runOf i Config.env L s).2.raced = false := by
    obtain ⟨r, c, q, d, f, h⟩ := runOf_same i Config.env L s
    rw [h]
    exact hr
  rw [exec_of_latch hL]
  rcases complete_cases Config.env i (runOf i) L s with ⟨e, hc, h⟩ | ⟨e, hc, ho, h⟩ | ⟨out, hc, ho, h⟩
  · rw [h, hc]
  · rw [h, hc, ho]
  · rw [h, hc, ho, State.outputBytes_unraced hr']

/-- The output of a run fits the destination window (R109). -/
theorem length_runOf_le {i : Instr} {env : Environment} {L : Latch} {s : State} {out : List Byte}
    (h : (runOf i env L s).1 = .ok out) :
    out.length ≤ (windows i L).dest.size := by
  cases i with
  | genkey =>
    simp only [runOf, runGenkey_eq] at h
    cases ha : s.entropyAnswer env L.len.toNat with
    | none => simp [ha] at h
    | some r =>
      simp only [ha, Except.ok.injEq] at h
      subst h
      simp [windows, State.length_entropyAnswer ha]
  | xor =>
    simp only [runOf, runXor_eq, Except.ok.injEq] at h
    subst h
    simp [windows]
  | rc4 =>
    simp only [runOf, runRc4_eq, Except.ok.injEq] at h
    subst h
    simp [windows]
  | cbcenc =>
    rcases hk : s.readWindow env (windows .cbcenc L).key with ⟨k, s₁⟩
    rcases hs : s₁.readWindow env (windows .cbcenc L).source with ⟨P, s₂⟩
    have hP : P.length = L.len.toNat := by
      have := State.length_readWindow env (windows .cbcenc L).source s₁
      rwa [hs] at this
    simp only [runOf, runCbcenc_eq env L s s₁ s₂ k P hk hs] at h
    cases ha : s₂.entropyAnswer env 16 with
    | none => simp [ha] at h
    | some iv =>
      simp only [ha, Except.ok.injEq] at h
      subst h
      simp [windows, blobLength, State.length_entropyAnswer ha, hP]
  | cbcdec =>
    rcases hk : s.readWindow env (windows .cbcdec L).key with ⟨k, s₁⟩
    rcases hs : s₁.readWindow env (windows .cbcdec L).source with ⟨Bl, s₂⟩
    have hB : Bl.length = L.len.toNat := by
      have := State.length_readWindow env (windows .cbcdec L).source s₁
      rwa [hs] at this
    simp only [runOf, runCbcdec_eq env L s s₁ s₂ k Bl hk hs] at h
    cases hp : padCheck (lastPlainBlock (env.decryptBlock s.params k) (blockAt Bl 0) (Bl.drop 16)) with
    | error e => simp [hp] at h
    | ok N =>
      simp only [hp, Except.ok.injEq] at h
      subst h
      have := padCheck_ok hp
      simp only [windows, List.length_take, List.length_drop, length_cbcDec]
      omega

end Sys2Proof.Machine
end

