-- ==== Sys2Proof/Laws/PerInstr.lean ====
section
/-! SUPPORT. One statement per command: the shape of its word (30_encoding R70, R71, R75). -/

namespace Sys2Proof.Laws.WordShape

/-- The word of a command has RSVD = 0, its opcode in OP, and is well formed. -/
def Statement (i : Instr) : Prop :=
  i.wellFormed = true ∧ rsvdField (encode i) = 0#24 ∧ opField (encode i) = opcodeOf i ∧
  commandWordWellFormed (encode i) = true

theorem genkey : Statement .genkey := ⟨rfl, rfl, rfl, rfl⟩

theorem xor : Statement .xor := ⟨rfl, rfl, rfl, rfl⟩

theorem rc4 : Statement .rc4 := ⟨rfl, rfl, rfl, rfl⟩

theorem cbcenc : Statement .cbcenc := ⟨rfl, rfl, rfl, rfl⟩

theorem cbcdec : Statement .cbcdec := ⟨rfl, rfl, rfl, rfl⟩

end Sys2Proof.Laws.WordShape
end

