-- ==== Sys2Proof/Laws/Steps.lean ====
section
/-! SUPPORT. What one step of the machine can do, said once: a reset, a completion of the latched word, or one step of the host, and what each of the host's steps is. -/

namespace Sys2Proof.Machine

theorem CmdError.code_ne_zero (e : CmdError) : e.code ≠ 0#4 := by cases e <;> decide

theorem Window.covers_iff (w : Window) (a : Nat) : w.covers a = true ↔ w.start ≤ a ∧ a < w.start + w.size := by
  simp [Window.covers]

/-- A supported access names its slot, and only that one (R23). -/
theorem slotOf_eq_some {p : Params} {addr width off : Nat} (h : slotOf p addr width = some off) :
    width = 32 ∧ addr = p.coreBase + off ∧ off % 4 = 0 ∧ off ≤ 0xFC := by
  unfold slotOf at h
  split at h
  · rename_i hh
    cases h
    simp [supportedAccess] at hh
    omega
  · cases h

theorem regAt_eq_some {off : Nat} {r : Reg} (h : regAt off = some r) : regOffset r = off := by
  unfold regAt at h
  simpa using List.find?_some h

/-- What a host write of a slot can do (R24 to R32): an issue, an overrun, an acknowledge, or a new value of CTRL or of
parameter registers. -/
theorem State.writeSlot_cases (s : State) (off : Nat) (v : Word) :
    (off = 0x0C ∧ s.busy = false ∧ s.writeSlot off v = s.issue v) ∨
    (off = 0x0C ∧ s.busy = true ∧ s.writeSlot off v = { s with ovr := true }) ∨
    (off = 0x08 ∧ s.writeSlot off v = s.acknowledge v) ∨
    (∃ ie a b c d e, s.writeSlot off v = { s with ie := ie, src := a, len := b, key := c, klen := d, dst := e }) := by
  unfold State.writeSlot
  cases hr : regAt off with
  | none => exact .inr (.inr (.inr ⟨s.ie, s.src, s.len, s.key, s.klen, s.dst, rfl⟩))
  | some r =>
    have ho := regAt_eq_some hr
    cases r <;> simp only [State.writeReg]
    case cmd =>
      simp only [regOffset] at ho
      unfold State.writeCmd
      cases hb : s.busy <;> simp [ho.symm]
    case status => exact .inr (.inr (.inl ⟨ho.symm, trivial⟩))
    all_goals exact .inr (.inr (.inr ⟨_, _, _, _, _, _, rfl⟩))

/-- What a step of the host can be (R76). -/
theorem hostStep_cases {env : Environment} {s t : State} (h : hostStep env s = .next t) :
    (s.inputs = [] ∧ t = s) ∨
    (∃ addr w rest off, s.inputs = .busRead addr w :: rest ∧ slotOf s.params addr w = some off ∧
      t = (s.report (.word (s.readSlot off))).advance rest) ∨
    (∃ addr w v rest off, s.inputs = .busWrite addr w v :: rest ∧ slotOf s.params addr w = some off ∧
      t = (s.writeSlot off v).advance rest) ∨
    (∃ rest, s.inputs = .wait :: rest ∧ s.busy = true ∧ t = s) ∨
    (∃ rest, s.inputs = .wait :: rest ∧ s.busy = false ∧ t = (s.report (.word s.statusWord)).advance rest) ∨
    (∃ a rest r f, s.inputs = .memRead a :: rest ∧ a < s.params.memSize ∧
      t = ({ s with freeDraws := f }.report r).advance rest) ∨
    (∃ a rest, s.inputs = .memWrite a [] :: rest ∧ t = s.advance rest) ∨
    (∃ a b bs rest, s.inputs = .memWrite a (b :: bs) :: rest ∧ a < s.params.memSize ∧
      t = (s.hostStore a b).advance (memLeft a bs rest)) := by
  unfold hostStep at h
  split at h
  · cases h
    exact .inl ⟨‹_›, rfl⟩
  · rename_i addr w rest hi
    unfold hostBusRead at h
    split at h <;> cases h
    exact .inr (.inl ⟨_, _, _, _, hi, ‹_›, rfl⟩)
  · rename_i addr w v rest hi
    unfold hostBusWrite at h
    split at h <;> cases h
    exact .inr (.inr (.inl ⟨_, _, _, _, _, hi, ‹_›, rfl⟩))
  · rename_i rest hi
    unfold hostWait at h
    split at h <;> cases h
    · exact .inr (.inr (.inr (.inl ⟨_, hi, ‹_›, rfl⟩)))
    · exact .inr (.inr (.inr (.inr (.inl ⟨_, hi, by simpa using ‹¬s.busy = true›, rfl⟩))))
  · rename_i a rest hi
    unfold hostMemRead at h
    split at h
    · cases h
    · split at h <;> cases h
      · exact .inr (.inr (.inr (.inr (.inr (.inl ⟨_, _, _, _, hi, by omega, rfl⟩)))))
      · exact .inr (.inr (.inr (.inr (.inr (.inl ⟨_, _, _, s.freeDraws, hi, by omega, rfl⟩)))))
  · rename_i a bs rest hi
    unfold hostMemWrite at h
    split at h
    · cases h
      exact .inr (.inr (.inr (.inr (.inr (.inr (.inl ⟨_, _, hi, rfl⟩))))))
    · split at h <;> cases h
      exact .inr (.inr (.inr (.inr (.inr (.inr (.inr ⟨_, _, _, _, hi, by omega, rfl⟩))))))

/-- What a step of the core can be: a latched word completes, with ERR_ILLEGAL or as the command it names (R74, R104). -/
theorem coreStep_cases {s t : State} (h : coreStep exec s = .next t) :
    ∃ L, s.latch = some L ∧
      ((∃ e, decode L.cmd = .error e ∧ t = s.failWith (illegalWordError e)) ∨
        (∃ i, decode L.cmd = .ok i ∧ exec i s = .next t)) := by
  unfold coreStep at h
  split at h
  · cases h
  · rename_i L hL
    refine ⟨L, hL, ?_⟩
    split at h
    · exact .inr ⟨_, ‹_›, h⟩
    · cases h
      exact .inl ⟨_, ‹_›, rfl⟩

/-- What a step of the machine can be. -/
theorem step_cases {s t : State} (h : step s = .next t) :
    (s.nextAgent = .reset ∧ t = s.popTurn.resetInput Config.env) ∨
    (s.nextAgent = .core ∧ coreStep exec s.popTurn = .next t) ∨
    (s.nextAgent = .host ∧ hostStep Config.env s.popTurn = .next t) := by
  unfold step stepWith at h
  cases hn : s.nextAgent <;> rw [hn] at h
  · exact .inr (.inr ⟨rfl, h⟩)
  · exact .inr (.inl ⟨rfl, h⟩)
  · cases h
    exact .inl ⟨rfl, rfl⟩

end Sys2Proof.Machine
end

