-- ==== Sys2Proof/Tests/Slice0.lean ====
section
/-! SUPPORT. The tests: words written out bit by bit, the checks on ill-formed words, vectors of 95_test_vectors run for one step under the test instantiation BC = ID, and for every obligation with hypotheses a state and operands that meet them. -/

open Sys2Proof Sys2Proof.Machine Sys2Proof.Claims

namespace Sys2Proof.Tests

/-- MEM_SIZE 0x10000, KEY_SIZES 16, 24, 32 (95 test vectors, R6). -/
def params : Params := ⟨0x0000FFFF#32, 0x80808000#32, 0x40000000⟩

/-- BC = ID, no entropy left once the ready answers are taken. -/
def env : Environment where
  blockCipher _ := Equiv.refl _
  otherEncrypt _ b := b
  otherDecrypt _ b := b
  entropyExhausted _ _ := true
  entropyByte _ _ := 0#8
  freeByte _ := 0xFF#8
  powerUpByte _ := 0xEE#8

/-- The bytes 00 01 ... 0f. -/
def iv : List Byte := (List.range 16).map (BitVec.ofNat 8)

/-- A BUSY machine with a latched command, a memory and ready entropy answers. -/
def running (L : Latch) (m : Memory) (q : List EntropyAnswer) : State :=
  { State.reset with params := params, busy := true, latch := some L, dmem := m, entropyAnswers := q }

/-- What a test looks at after a step. -/
def look {α : Type} (f : State → α) : Host.Outcome State Fault Refusal → Option α
  | .next t => some (f t)
  | .fault _ => none
  | .refused _ => none

/-- V-GEN-1. -/
theorem test_genkey_writes_the_draw :
    look (fun t => (Memory.readBytes env t.dmem 0x40 4, t.outlen, t.statusWord))
      (execGenkeyWith env (running ⟨1#32, 0#32, 4#32, 0xFFFFFFFF#32, 0#32, 0x40#32⟩ [] [.ok [0x9c#8, 0x01#8, 0xfe#8, 0x33#8]]))
      = some ([0x9c#8, 0x01#8, 0xfe#8, 0x33#8], 4#32, 2#32) := by decide

/-- V-GEN-3. -/
theorem test_genkey_exhausted :
    look (fun t => (t.dmem, t.outlen, t.statusWord, t.cause))
      (execGenkeyWith env (running ⟨1#32, 0#32, 16#32, 0#32, 0#32, 0x100#32⟩ [] [.exhausted]))
      = some ([], 0#32, 0x52#32, 1#8) := by decide

/-- V-XOR-1. -/
theorem test_xor_bytes :
    look (fun t => (Memory.readBytes env t.dmem 0x300 2, t.outlen, t.statusWord))
      (execXorWith env (running ⟨2#32, 0x100#32, 2#32, 0x200#32, 2#32, 0x300#32⟩
        [(0x100, 0x48#8), (0x101, 0x69#8), (0x200, 0x01#8), (0x201, 0xff#8)] []))
      = some ([0x49#8, 0x96#8], 2#32, 2#32) := by decide

/-- V-XOR-10: no wrap at 2^32. -/
theorem test_xor_source_out_of_range :
    look (fun t => (t.outlen, t.statusWord, t.cause))
      (execXorWith env (running ⟨2#32, 0xFFFFFFF0#32, 0x20#32, 0x200#32, 0x20#32, 0x300#32⟩ [] []))
      = some (0#32, 0x62#32, 1#8) := by decide

/-- V-RC4-1, run in the host's memory: "Key", "Plaintext". -/
theorem test_rc4_published_vector :
    look (fun t => (Memory.readBytes env t.dmem 0x200 9, t.outlen, t.statusWord))
      (execRc4With env (running ⟨3#32, 0x200#32, 9#32, 0x100#32, 3#32, 0x200#32⟩
        [(0x100, 0x4b#8), (0x101, 0x65#8), (0x102, 0x79#8), (0x200, 0x50#8), (0x201, 0x6c#8), (0x202, 0x61#8),
          (0x203, 0x69#8), (0x204, 0x6e#8), (0x205, 0x74#8), (0x206, 0x65#8), (0x207, 0x78#8), (0x208, 0x74#8)] []))
      = some ([0xbb#8, 0xf3#8, 0x16#8, 0xe8#8, 0xd9#8, 0x40#8, 0xaf#8, 0x0a#8, 0xd3#8], 9#32, 2#32) := by
  decide +kernel

/-- V-RC4-E1: the empty key comes before the range checks. -/
theorem test_rc4_empty_key :
    look (fun t => (t.outlen, t.statusWord, t.cause))
      (execRc4With env (running ⟨3#32, 0xFFFFFFFF#32, 9#32, 0xFFFFFFFF#32, 0#32, 0x200#32⟩ [] []))
      = some (0#32, 0x22#32, 2#8) := by decide

/-- V-CBC-2. -/
theorem test_cbcenc_blob :
    look (fun t => (Memory.readBytes env t.dmem 0x300 32, t.outlen, t.statusWord))
      (execCbcencWith env (running ⟨4#32, 0x200#32, 1#32, 0x100#32, 16#32, 0x300#32⟩ [(0x200, 0x41#8)] [.ok iv]))
      = some (iv ++ [0x41#8, 0x0e#8, 0x0d#8, 0x0c#8, 0x0b#8, 0x0a#8, 0x09#8, 0x08#8, 0x07#8, 0x06#8, 0x05#8, 0x04#8,
          0x03#8, 0x02#8, 0x01#8, 0x00#8], 32#32, 2#32) := by decide +kernel

/-- V-CBC-E9: no draw is made. -/
theorem test_cbcenc_blob_out_of_range :
    look (fun t => (t.outlen, t.statusWord, t.cause, t.entropyDraws))
      (execCbcencWith env (running ⟨4#32, 0x200#32, 0#32, 0x100#32, 16#32, 0xFFE1#32⟩ [] [.ok iv]))
      = some (0#32, 0x62#32, 3#8, 0) := by decide

/-- V-CBC-E13: the 15-byte window keeps its bytes past OUTLEN. -/
theorem test_cbcdec_strips_padding :
    look (fun t => (Memory.readBytes env t.dmem 0x400 3, t.outlen, t.statusWord))
      (execCbcdecWith env (running ⟨5#32, 0x300#32, 32#32, 0x100#32, 16#32, 0x400#32⟩
        (Memory.writeBytes (Memory.writeBytes [] 0x400 (List.replicate 15 0x77#8)) 0x300 (iv ++ [0x41#8, 0x0e#8, 0x0d#8,
          0x0c#8, 0x0b#8, 0x0a#8, 0x09#8, 0x08#8, 0x07#8, 0x06#8, 0x05#8, 0x04#8, 0x03#8, 0x02#8, 0x01#8, 0x00#8])) []))
      = some ([0x41#8, 0x77#8, 0x77#8], 1#32, 2#32) := by decide +kernel

/-- V-CBC-7. -/
theorem test_cbcdec_tampered :
    look (fun t => (Memory.lookup t.dmem 0x400, t.outlen, t.statusWord, t.cause))
      (execCbcdecWith env (running ⟨5#32, 0x300#32, 32#32, 0x100#32, 16#32, 0x400#32⟩
        (Memory.writeBytes [] 0x300 (iv ++ [0x10#8, 0x11#8, 0x12#8, 0x13#8, 0x14#8, 0x15#8, 0x16#8, 0x17#8, 0x18#8,
          0x19#8, 0x1a#8, 0x1b#8, 0x1c#8, 0x1d#8, 0x1e#8, 0x00#8])) []))
      = some (none, 0#32, 0x42#32, 2#8) := by decide +kernel

/-! ### Words and checks -/

/-- R70, R71: RSVD = 0, OP = 1. -/
theorem test_decode_genkey : decode 0b000000000000000000000000_00000001#32 = .ok .genkey := by decide

theorem test_decode_xor : decode 0b000000000000000000000000_00000010#32 = .ok .xor := by decide

theorem test_decode_rc4 : decode 0b000000000000000000000000_00000011#32 = .ok .rc4 := by decide

theorem test_decode_cbcenc : decode 0b000000000000000000000000_00000100#32 = .ok .cbcenc := by decide

theorem test_decode_cbcdec : decode 0b000000000000000000000000_00000101#32 = .ok .cbcdec := by decide

/-- V-FW-8, V-FW-9, V-FW-10, V-FW-11. -/
theorem test_decode_illegal :
    decode 0x00000000#32 = .error .unknownOpcode ∧ decode 0x00000006#32 = .error .unknownOpcode ∧
    decode 0x000000FF#32 = .error .unknownOpcode ∧ decode 0x00000103#32 = .error .reservedBits ∧
    decode 0x80000000#32 = .error .reservedBits := by decide

/-- The check on the reserved bits refuses 0x00000103, and only it does. -/
theorem smoke_reserved_bits :
    reservedBitsZero 0x00000103#32 = false ∧ opcodeInMap 0x00000103#32 = true ∧
    commandWordWellFormed 0x00000103#32 = false := by decide

/-- The check on the opcode refuses 0x00000000 and 0x00000006, and only it does. -/
theorem smoke_opcode :
    opcodeInMap 0x00000000#32 = false ∧ opcodeInMap 0x00000006#32 = false ∧ reservedBitsZero 0x00000006#32 = true ∧
    commandWordWellFormed 0x00000006#32 = false := by decide

/-- Every command passes its check: it has no operand that could be ill formed (R70). -/
theorem smoke_commands : ∀ i : Instr, i.wellFormed = true ∧ commandWordWellFormed (encode i) = true := by
  intro i; cases i <;> decide

/-- R23: the width, the alignment and the range of a register access are each refused. -/
theorem smoke_supported_access :
    supportedAccess 0x08 16 = false ∧ supportedAccess 0x0A 32 = false ∧ supportedAccess 0x100 32 = false ∧
    supportedAccess 0xFC 32 = true := by decide

/-- The table's bits give the command, too many bits give none. -/
theorem test_decode_table_word :
    decodeTableWord 32 0x00000005 = some .cbcdec ∧ decodeTableWord 32 0x00000105 = none ∧
    decodeTableWord 40 0x0100000005 = none := by decide

/-! ### The register block -/

/-- An idle machine with a host program. -/
def idle (inputs : List HostStmt) : State := { State.reset with params := params, inputs := inputs }

/-- V-FW-2: BUSY right after the issue. -/
theorem test_issue_status :
    look (fun t => (t.statusWord, t.latch.map (fun L => L.cmd)))
      (step (idle [asmIssue params .rc4])) = some (1#32, some 3#32) := by decide

/-- V-FW-6: a CMD write while BUSY. -/
theorem test_overrun_status :
    look (fun t => t.statusWord)
      (step { running ⟨3#32, 0#32, 0#32, 0#32, 0#32, 0#32⟩ [] [] with inputs := [asmCmd params 1#32], turns := [.host] })
      = some 5#32 := by decide

/-- V-FW-10. -/
theorem test_reserved_word_completes :
    look (fun t => (t.statusWord, t.cause, t.outlen)) (step ((idle []).withFetchWord 32 0x00000103))
      = some (0x12#32, 2#8, 0#32) := by decide

/-- V-FW-12. -/
theorem test_ctrl_reads_one :
    look (fun t => t.readSlot 0x04) (step (idle [asmWr params .ctrl 0xFFFFFFFF#32])) = some 1#32 := by decide

/-- V-FW-7, V-FW-4: writing 4 clears OVR and leaves DONE. -/
theorem test_status_write_one_to_clear :
    look (fun t => t.statusWord) (step { idle [asmWr params .status 4#32] with done := true, ovr := true })
      = some 2#32 := by decide

/-- R25, R22, R54: ID read on the bus. -/
theorem test_read_id :
    look (fun t => t.results) (step (idle [.busRead 0x40000000 32])) = some [.word 0x45524F43#32] := by decide

/-- R217: a host write to the source window of the running command is a race. -/
theorem test_race :
    look (fun t => (t.raceMark, t.dmem))
      (step { running ⟨2#32, 0x100#32, 2#32, 0x200#32, 2#32, 0x300#32⟩ [] [] with
        inputs := [.memWrite 0x101 [0x55#8]], turns := [.host] }) = some (true, [(0x101, 0x55#8)]) := by decide

/-- R230: reset keeps DMEM outside the window of the running command, and the race mark. -/
theorem test_reset :
    look (fun t => (t.busy, t.statusWord, t.src, Memory.lookup t.dmem 0x100, t.raceMark))
      (step { running ⟨2#32, 0x100#32, 2#32, 0x200#32, 2#32, 0x300#32⟩ [(0x100, 0x48#8)] [] with
        src := 0x100#32, raceMark := true, turns := [.reset] })
      = some (false, 0#32, 0#32, some 0x48#8, true) := by decide

/-- The word placed after reset is the one the next step runs. -/
theorem test_fetch_word_runs :
    step (State.reset.withFetchWord 32 0x00000003) = exec .rc4 { State.reset.issue 3#32 with turns := [] } := rfl

/-! ### The transforms -/

/-- The KSA's first four steps under "Key" (95 step trace). -/
theorem test_ksa_trace :
    (ksaRun [0x4b#8, 0x65#8, 0x79#8] 4).j = 122#8 ∧ SBox.at (ksaRun [0x4b#8, 0x65#8, 0x79#8] 4).sbox 2#8 = 44#8 := by
  decide +kernel

/-- V-PAD-1, V-PAD-3, V-PAD-4, V-PAD-8, V-PAD-9. -/
theorem test_pad_check :
    padCheck (blockAt (List.replicate 15 0x11#8 ++ [0x01#8]) 0) = .ok 1 ∧
    padCheck (blockAt (List.replicate 16 0x00#8) 0) = .error .paddingCount ∧
    padCheck (blockAt (List.replicate 16 0x11#8) 0) = .error .paddingCount ∧
    padCheck (blockAt (List.replicate 12 0x00#8 ++ [0x05#8, 0x04#8, 0x04#8, 0x04#8]) 0) = .error .paddingBytes ∧
    padCheck (blockAt (List.replicate 15 0x0f#8 ++ [0x10#8]) 0) = .error .paddingBytes := by decide +kernel

/-- V-SRC-3. -/
theorem test_pad_count :
    padCount [] = 16 ∧ padCount (List.replicate 15 0#8) = 1 ∧ padCount (List.replicate 16 0#8) = 16 ∧
    padCount (List.replicate 17 0#8) = 15 := by decide

/-! ### Witnesses: states and operands that meet the hypotheses of each obligation -/

@[simp] theorem running_dmem (L : Latch) (m : Memory) (q : List EntropyAnswer) : (running L m q).dmem = m := rfl

/-- XOR of 2 bytes at 0x100 with the key at 0x200 to 0x300 (V-XOR-1). -/
def xorLatch : Latch := ⟨2#32, 0x100#32, 2#32, 0x200#32, 2#32, 0x300#32⟩

def xorRun : State :=
  running xorLatch [(0x100, 0x48#8), (0x101, 0x69#8), (0x200, 0x01#8), (0x201, 0xff#8)] []

/-- XOR with KLEN != LEN (V-XOR-5). -/
def badLatch : Latch := ⟨2#32, 0x100#32, 4#32, 0x200#32, 5#32, 0x300#32⟩

def badRun : State := running badLatch [] []

/-- RC4 in place (V-RC4-E3). -/
def rc4Latch : Latch := ⟨3#32, 0x200#32, 11#32, 0x100#32, 9#32, 0x200#32⟩

def rc4Run : State := running rc4Latch [] []

/-- GENKEY of 4 bytes, which the entropy source answers (V-GEN-1). -/
def genkeyLatch : Latch := ⟨1#32, 0#32, 4#32, 0#32, 0#32, 0x40#32⟩

def genkeyRun : State := running genkeyLatch [] [.ok [0x9c#8, 0x01#8, 0xfe#8, 0x33#8]]

/-- CBCENC of one byte with an IV (V-CBC-2). -/
def encLatch : Latch := ⟨4#32, 0x200#32, 1#32, 0x100#32, 16#32, 0x300#32⟩

def encRun : State := running encLatch [] [.ok iv]

/-- CBCDEC of a 32-byte blob, its destination window ending at MEM_SIZE (V-CBC-E7). -/
def decLatch : Latch := ⟨5#32, 0x300#32, 32#32, 0x100#32, 16#32, 0xFFF1#32⟩

/-- A blob whose last block decrypts to `b` under the key bytes power-up left at 0x100, whatever BC is. -/
def decBlob (b : Block) : List Byte :=
  List.replicate 16 0#8 ++ Block.bytes (Config.env.encryptBlock params (Memory.readBytes Config.env [] 0x100 16) b)

def decRun (b : Block) : State := running decLatch (Memory.writeBytes [] 0x300 (decBlob b)) []

theorem witness_DecodeInvertsEncode :
    Instr.cbcdec.wellFormed = true ∧ decode 0x00000005#32 = .ok .cbcdec := by decide

theorem witness_StepCompletesTheLatchedCommand :
    coreMoves xorRun ∧ xorRun.latch = some xorLatch ∧ decode xorLatch.cmd = .ok .xor := by decide

/-- Both clauses, at the words next to the map. -/
theorem witness_IllegalWordCompletesWithErrIllegal :
    ∀ w : Word, w = 0x00000000#32 ∨ w = 0x00000006#32 ∨ w = 0x00000101#32 →
      coreMoves (running ⟨w, 0#32, 0#32, 0#32, 0#32, 0#32⟩ [] []) ∧ ∀ i : Instr, w ≠ encode i := by
  rintro w (rfl | rfl | rfl) <;> exact ⟨by decide, by intro i; cases i <;> decide⟩

/-- A reset that cuts an XOR: the first and the last byte of its window, and the bytes beside it. -/
theorem witness_ResetStepSetsTheResetValues :
    { xorRun with turns := [.reset] }.turns.head? = some .reset ∧ xorRun.latch = some xorLatch ∧
    decode xorLatch.cmd = .ok .xor ∧ inDest .xor xorLatch 0x300 ∧ inDest .xor xorLatch 0x301 ∧
    ¬inDest .xor xorLatch 0x2FF ∧ ¬inDest .xor xorLatch 0x302 ∧ 0x301 < xorRun.params.memSize := by
  simp only [inDest, destLength]; decide

theorem witness_IdleCoreDoesNothing :
    (idle []).busy = false ∧ (idle []).inputs = [] ∧ (idle []).turns.head? ≠ some .reset := by decide

/-- Reads at both ends of the block, BUSY and not. -/
theorem witness_HostReadReturnsTheRegisterValue :
    hostMoves (idle [.busRead (0x40000000 + 0xFC) 32]) ∧
    hostMoves { xorRun with inputs := [.busRead 0x40000000 32], turns := [.host] } ∧
    xorRun.params.coreBase = 0x40000000 ∧ 0xFC % 4 = 0 := by decide

/-- Each clause: a byte access, an address below and one past the block, a misaligned one. -/
theorem witness_UnsupportedRegisterAccessIsRefused :
    hostMoves (idle [.busRead 0x40000008 8]) ∧ hostMoves (idle [.busWrite 0x3FFFFFFC 32 1#32]) ∧
    hostMoves (idle [.busRead 0x4000000A 32]) ∧ hostMoves (idle [.busWrite 0x40000100 32 1#32]) ∧
    0x3FFFFFFC < params.coreBase ∧ (0x4000000A - params.coreBase) % 4 ≠ 0 ∧ params.coreBase + 0xFC < 0x40000100 := by
  decide

/-- A write of v at an offset by the idle host. -/
def writing (off : Nat) (v : Word) : State := idle [.busWrite (0x40000000 + off) 32 v]

/-- The same while a command runs. -/
def writingBusy (off : Nat) (v : Word) : State :=
  { xorRun with inputs := [.busWrite (0x40000000 + off) 32 v], turns := [.host] }

theorem writing_writesAt (off : Nat) (v : Word) : writesAt (writing off v) off v [] := ⟨.inr ⟨rfl, nofun⟩, rfl⟩

theorem writingBusy_writesAt (off : Nat) (v : Word) : writesAt (writingBusy off v) off v [] := ⟨.inl rfl, rfl⟩

/-- Both ends of the reserved slots, a read-only register, and words that differ in ignored bits only. -/
theorem witness_ReservedAndReadOnlyIgnoreWrites :
    writesAt (writing 0x34 1#32) 0x34 1#32 [] ∧ writesAt (writingBusy 0xFC 1#32) 0xFC 1#32 [] ∧
    writesAt (writing 0x24 0x12345678#32) 0x24 0x12345678#32 [] ∧
    (1#32).getLsbD 0 = (0xFFFFFFFF#32).getLsbD 0 ∧ (6#32).getLsbD 1 = (0xFFFFFFFF#32).getLsbD 1 ∧
    (6#32).getLsbD 2 = (0xFFFFFFFF#32).getLsbD 2 ∧ 256 ≤ (0x00000100#32).toNat :=
  ⟨writing_writesAt _ _, writingBusy_writesAt _ _, writing_writesAt _ _, by decide⟩

theorem witness_CtrlWriteSetsInterruptEnable :
    writesAt (writing 0x04 1#32) 0x04 1#32 [] ∧ writesAt (writingBusy 0x04 0#32) 0x04 0#32 [] :=
  ⟨writing_writesAt _ _, writingBusy_writesAt _ _⟩

theorem witness_StatusWriteClearsDoneAndOvr :
    writesAt (writing 0x08 2#32) 0x08 2#32 [] ∧ writesAt (writingBusy 0x08 4#32) 0x08 4#32 [] ∧
    ∃ s : State, s.Inv ∧ s.busy = true :=
  ⟨writing_writesAt _ _, writingBusy_writesAt _ _, badRun,
    ⟨rfl, by decide, by decide, .inl ⟨rfl, rfl⟩, by decide, ⟨rfl, rfl⟩, by decide, rfl, rfl⟩, rfl⟩

theorem witness_ParameterWritesReadBack :
    writesAt (writing 0x10 5#32) 0x10 5#32 [] ∧ writesAt (writing 0x14 5#32) 0x14 5#32 [] ∧
    writesAt (writing 0x18 5#32) 0x18 5#32 [] ∧ writesAt (writing 0x1C 5#32) 0x1C 5#32 [] ∧
    writesAt (writingBusy 0x20 5#32) 0x20 5#32 [] :=
  ⟨writing_writesAt _ _, writing_writesAt _ _, writing_writesAt _ _, writing_writesAt _ _, writingBusy_writesAt _ _⟩

theorem witness_IssueLatchesAndGoesBusy :
    writesAt (writing 0x0C 3#32) 0x0C 3#32 [] ∧ (writing 0x0C 3#32).busy = false := ⟨writing_writesAt _ _, rfl⟩

theorem witness_CmdWriteWhileBusyOnlySetsOvr :
    writesAt (writingBusy 0x0C 3#32) 0x0C 3#32 [] ∧ (writingBusy 0x0C 3#32).busy = true :=
  ⟨writingBusy_writesAt _ _, rfl⟩

/-- The ends of the key sizes: 16 and 32 are accepted, 1 is not. -/
theorem witness_SizeRegistersTellBlockAndKeySizes :
    params.acceptsKey 16 = true ∧ params.acceptsKey 32 = true ∧ params.acceptsKey 1 = false := by decide

/-- The XOR of `xorRun` completes. -/
theorem exec_xorRun : ∃ t, exec .xor xorRun = .next t ∧ t.err = 0#4 := ⟨_, exec_of_latch rfl _, rfl⟩

/-- The XOR of `badRun` fails its first check. -/
theorem exec_badRun : ∃ t, exec .xor badRun = .next t ∧ t.err ≠ 0#4 := ⟨_, exec_of_latch rfl _, by decide⟩

theorem witness_IrqFollowsEnableAndDone :
    (∃ t, exec .xor { xorRun with ie := true } = .next t) ∧ (2#32).getLsbD 1 = true :=
  ⟨⟨_, exec_of_latch rfl _⟩, by decide⟩

/-- An issue, a completion and a reset each change BUSY. -/
theorem witness_BusyChangesOnlyByIssueAndCompletion :
    (∃ t, step (writing 0x0C 3#32) = .next t ∧ (writing 0x0C 3#32).busy = false ∧ t.busy = true) ∧
    (∃ t, step badRun = .next t ∧ badRun.busy = true ∧ t.busy = false) ∧
    (∃ t, step { badRun with turns := [.reset] } = .next t ∧ t.busy = false) :=
  ⟨⟨_, rfl, rfl, rfl⟩, ⟨_, rfl, rfl, rfl⟩, ⟨_, rfl, rfl⟩⟩

/-- DONE set and cleared, OVR set and cleared, the race mark set. -/
theorem witness_StatusBitsChangeOnlyByTheirEvents :
    (∃ t, step badRun = .next t ∧ badRun.done = false ∧ t.done = true) ∧
    (∃ t, step { writing 0x08 2#32 with done := true } = .next t ∧ t.done = false) ∧
    (∃ t, step { writing 0x0C 3#32 with done := true } = .next t ∧ t.done = false) ∧
    (∃ t, step (writingBusy 0x0C 3#32) = .next t ∧ (writingBusy 0x0C 3#32).ovr = false ∧ t.ovr = true) ∧
    (∃ t, step { writing 0x08 4#32 with ovr := true } = .next t ∧ t.ovr = false) ∧
    (∃ t, step { xorRun with inputs := [.memWrite 0x301 [1#8]], turns := [.host] } = .next t ∧
      xorRun.raceMark = false ∧ t.raceMark = true) :=
  ⟨⟨_, rfl, rfl, rfl⟩, ⟨_, rfl, rfl⟩, ⟨_, rfl, rfl⟩, ⟨_, rfl, rfl, rfl⟩, ⟨_, rfl, rfl⟩, ⟨_, rfl, rfl, rfl⟩⟩

theorem witness_ResultRegistersChangeOnlyByIssueAndCompletion :
    (∃ t, step badRun = .next t ∧ t.err ≠ badRun.err) ∧
    (∃ t, step { writing 0x0C 3#32 with outlen := 7#32 } = .next t ∧ t.outlen ≠ 7#32) :=
  ⟨⟨_, rfl, by decide⟩, ⟨_, rfl, by decide⟩⟩

/-- A host write and a completion each change a byte. -/
theorem witness_DmemChangesOnlyByItsWriters :
    (∃ t, step (idle [.memWrite 0 [1#8]]) = .next t ∧ Memory.lookup t.dmem 0 = some 1#8) ∧
    (∃ t, step { idle [.memWrite 0 [1#8]] with dmem := [(0, 2#8)] } = .next t ∧
      byteAt t 0 ≠ byteAt { idle [.memWrite 0 [1#8]] with dmem := [(0, 2#8)] } 0) ∧
    (∃ t, step { xorRun with dmem := xorRun.dmem ++ [(0x300, 0x48#8)] } = .next t ∧
      byteAt t 0x300 ≠ byteAt { xorRun with dmem := xorRun.dmem ++ [(0x300, 0x48#8)] } 0x300) :=
  ⟨⟨_, rfl, rfl⟩, ⟨_, rfl, by decide⟩, ⟨_, rfl, by decide⟩⟩

theorem witness_ParametersFixedAndRaceMarkKept :
    ∃ t, step { badRun with raceMark := true } = .next t := ⟨_, rfl⟩

theorem witness_WaitEndsAfterFinitelyManyPolls :
    ∃ s : State, s.busy = true ∧ s.latch.isSome = true ∧ s.inputs = .wait :: [] ∧ s.turns = List.replicate 3 .host :=
  ⟨{ badRun with inputs := [.wait], turns := [.host, .host, .host] }, rfl, rfl, rfl, rfl⟩

theorem witness_EveryCommandCompletesAndScrubs : xorRun.latch = some xorLatch := rfl

theorem witness_NoLatchNoCompletion : (idle []).latch = none := rfl

/-- One command for each check of the pipeline (V-XOR-4, V-RC4-E1, V-CBC-E1, V-CBC-E3, V-CBC-E4, V-XOR-10, V-XOR-11,
V-GEN-4, V-XOR-9). -/
theorem witness_FirstFailingCheckIsReported :
    firstError badRun .xor badLatch = some (2#4, 1#8) ∧
    firstError badRun .rc4 { badLatch with klen := 0#32 } = some (2#4, 2#8) ∧
    firstError badRun .cbcdec badLatch = some (2#4, 3#8) ∧
    firstError badRun .cbcdec { badLatch with klen := 16#32, len := 31#32 } = some (3#4, 1#8) ∧
    firstError badRun .cbcdec { badLatch with klen := 16#32, len := 33#32 } = some (3#4, 2#8) ∧
    firstError badRun .xor ⟨2#32, 0xFFFFFFF0#32, 0x20#32, 0x200#32, 0x20#32, 0x300#32⟩ = some (6#4, 1#8) ∧
    firstError badRun .xor ⟨2#32, 0x100#32, 0x20#32, 0xFFF0#32, 0x20#32, 0x300#32⟩ = some (6#4, 2#8) ∧
    firstError badRun .genkey ⟨1#32, 0#32, 3#32, 0#32, 0#32, 0xFFFE#32⟩ = some (6#4, 3#8) ∧
    firstError badRun .xor ⟨2#32, 0x100#32, 3#32, 0x200#32, 3#32, 0x101#32⟩ = some (2#4, 4#8) := by decide

theorem witness_XorLengthMismatchAlwaysFails :
    badRun.latch = some badLatch ∧ badLatch.klen ≠ badLatch.len := by decide

theorem witness_EachCommandRaisesOnlyItsErrors : ∃ t, exec .xor badRun = .next t ∧ t.err ≠ 0#4 := exec_badRun

theorem witness_ErrorCompletionLeavesNoPartialEffect : ∃ t, exec .xor badRun = .next t ∧ t.err ≠ 0#4 := exec_badRun

theorem witness_CommandChangesOnlyItsDestination :
    xorRun.latch = some xorLatch ∧ xorRun.raced = false ∧ ∃ t, exec .xor xorRun = .next t :=
  ⟨rfl, rfl, _, exec_of_latch rfl _⟩

/-- A draw is made, and none is made by a failed check or by another command. -/
theorem witness_EntropyDrawnExactlyWhenTransformRuns :
    (firstError genkeyRun .genkey genkeyLatch = none ∧ ∃ t, exec .genkey genkeyRun = .next t) ∧
    (firstError badRun .genkey ⟨1#32, 0#32, 3#32, 0#32, 0#32, 0xFFFE#32⟩ ≠ none) ∧ (∃ t, exec .xor xorRun = .next t) :=
  ⟨⟨by decide, _, exec_of_latch rfl _⟩, by decide, _, exec_of_latch rfl _⟩

theorem witness_GenkeyIgnoresUnusedOperands : genkeyRun.latch = some genkeyLatch := rfl

/-- Two memories that agree on the inputs and differ elsewhere. -/
theorem witness_CommandReadsOnlyItsInputWindows :
    xorRun.latch = some xorLatch ∧ (0x300, 7#8) ∉ xorRun.dmem ∧
    (∀ a, inInput .xor xorLatch a → Memory.read Config.env (Memory.write xorRun.dmem 0x300 7#8) a = byteAt xorRun a) ∧
    ∃ t, exec .xor xorRun = .next t := by
  refine ⟨rfl, by decide, fun a h => ?_, _, exec_of_latch rfl _⟩
  have h' : (0x100 ≤ a ∧ a < 0x102) ∨ (0x200 ≤ a ∧ a < 0x202) := h.2
  exact Memory.read_write_other _ _ _ (by omega)

theorem witness_CompletionIgnoresParameterRegisters : ∃ t, exec .xor xorRun = .next t := ⟨_, exec_of_latch rfl _⟩

theorem witness_EntropyMayAnswerAnything :
    genkeyRun.entropyAnswer Config.env 4 = some [0x9c#8, 0x01#8, 0xfe#8, 0x33#8] := by decide

/-- Both answers, for a window that ends at MEM_SIZE and for an empty one anywhere (V-GEN-2, V-GEN-3, V-GEN-5). -/
theorem witness_GenkeyWritesItsDraw :
    (genkeyRun.latch = some genkeyLatch ∧ genkeyRun.raced = false ∧ fits genkeyRun 0x40 4 ∧
      genkeyRun.entropyAnswer Config.env 4 = some [0x9c#8, 0x01#8, 0xfe#8, 0x33#8]) ∧
    (running genkeyLatch [] [.exhausted]).entropyAnswer Config.env 4 = none ∧
    fits genkeyRun 0xFFFE 2 ∧ fits genkeyRun 0xFFFFFFFF 0 := by decide

/-- Apart, in place, and the empty command anywhere (V-XOR-1, V-XOR-3, V-XOR-6). -/
theorem witness_XorWritesDataXorKey :
    xorRun.latch = some xorLatch ∧ xorRun.raced = false ∧ xorLatch.klen = xorLatch.len ∧
    streamOperandsFit xorRun xorLatch ∧ streamOperandsFit xorRun { xorLatch with dst := 0x100#32 } ∧
    streamOperandsFit xorRun ⟨2#32, 0xFFFFFFFF#32, 0#32, 0xFFFFFFFF#32, 0#32, 0xFFFFFFFF#32⟩ := by
  unfold streamOperandsFit; decide

theorem witness_Rc4WritesThePrgaOutput :
    rc4Run.latch = some rc4Latch ∧ rc4Run.raced = false ∧ rc4Latch.klen ≠ 0#32 ∧ streamOperandsFit rc4Run rc4Latch ∧
    streamOperandsFit rc4Run { rc4Latch with len := 0#32, klen := 1#32 } := by
  unfold streamOperandsFit; decide

/-- Both answers; the blob window may end at MEM_SIZE (V-CBC-2, V-CBC-E8, V-CBC-E11). -/
theorem witness_CbcencWritesTheBlob :
    (encRun.latch = some encLatch ∧ encRun.raced = false ∧ blockOperandsFit encRun encLatch 32 ∧
      encRun.entropyAnswer Config.env 16 = some iv) ∧
    (running encLatch [] [.exhausted]).entropyAnswer Config.env 16 = none ∧
    blockOperandsFit encRun { encLatch with len := 0#32, dst := 0xFFE0#32 } 32 := by
  unfold blockOperandsFit; decide

theorem xorBlock_zero (b : Block) : xorBlock b (blockAt (List.replicate 16 0#8) 0) = b := by
  have h : Block.bytes (blockAt (List.replicate 16 0#8) 0) = List.replicate 16 0#8 := by decide
  have hx : xorBytes (Block.bytes b) (List.replicate 16 0#8) = Block.bytes b := by
    refine List.ext_getElem (by simp) fun k h1 h2 => ?_
    rw [show (xorBytes (Block.bytes b) (List.replicate 16 0#8))[k] = xorByte (Block.bytes b)[k] 0#8 by
      simp only [xorBytes, List.getElem_zipWith, List.getElem_replicate]]
    exact BitVec.xor_zero
  rw [xorBlock, h, hx]
  simpa using blockAt_bytes_append b []

/-- What was just written is read back. -/
theorem bytesAt_written {s : State} {m : Memory} {a n : Nat} {bs : List Byte} (h : s.dmem = Memory.writeBytes m a bs)
    (hn : bs.length = n) : bytesAt s a n = bs := by
  subst hn
  have hr := Memory.readBytes_writeBytes Config.env m a bs
  rw [← h, Memory.readBytes_eq_map] at hr
  exact hr

/-- What lies below the written bytes is kept. -/
theorem bytesAt_below {s : State} {m : Memory} {a b n : Nat} {bs : List Byte} (h : s.dmem = Memory.writeBytes m a bs)
    (hb : b + n ≤ a) : bytesAt s b n = Memory.readBytes Config.env m b n := by
  rw [Memory.readBytes_eq_map]
  refine List.map_congr_left fun k hk => ?_
  have hk : k < n := by simpa using hk
  rw [byteAt, h]
  exact Memory.read_writeBytes_outside _ _ _ (.inl (by omega))

/-- What CBCDEC reads in `decRun b`: a blob whose last block decrypts to `b`. -/
theorem decRun_blob (b : Block) :
    bytesAt (decRun b) 0x300 32 = List.replicate 16 0#8 ++
      Block.bytes (Config.env.encryptBlock params (bytesAt (decRun b) 0x100 16) b) := by
  have h : (decRun b).dmem = Memory.writeBytes [] 0x300 (decBlob b) := by
    rw [decRun, running_dmem]
  have hlen : (decBlob b).length = 32 := by
    rw [decBlob, List.length_append, List.length_replicate, Block.length_bytes]
  rw [bytesAt_written h hlen, bytesAt_below h (by decide), decBlob]

theorem decRun_last (b : Block) (D : Block → Block)
    (hD : D = Config.env.decryptBlock params (bytesAt (decRun b) 0x100 16)) :
    lastPlainBlock D (blockAt (bytesAt (decRun b) 0x300 32) 0) ((bytesAt (decRun b) 0x300 32).drop 16) = b := by
  subst hD
  rw [decRun_blob]
  have hk : params.acceptsKey (bytesAt (decRun b) 0x100 16).length = true := by
    rw [bytesAt, List.length_map, List.length_range]
    decide
  revert hk
  generalize bytesAt (decRun b) 0x100 16 = k
  intro hk
  have h1 : (List.replicate 16 0#8 ++ Block.bytes (Config.env.encryptBlock params k b)).drop 16 =
      Block.bytes (Config.env.encryptBlock params k b) := List.drop_left' (by simp)
  have h2 : blockAt (List.replicate 16 0#8 ++ Block.bytes (Config.env.encryptBlock params k b)) 0 =
      blockAt (List.replicate 16 0#8) 0 := by
    have h := blockAt_bytes_append (blockAt (List.replicate 16 0#8) 0) (Block.bytes (Config.env.encryptBlock params k b))
    rwa [show Block.bytes (blockAt (List.replicate 16 0#8) 0) = List.replicate 16 0#8 by decide] at h
  have h3 : blockAt (Block.bytes (Config.env.encryptBlock params k b)) 0 = Config.env.encryptBlock params k b := by
    simpa using blockAt_bytes_append (Config.env.encryptBlock params k b) []
  rw [h1, h2, lastPlainBlock]
  simp only [Block.length_bytes]
  rw [if_pos (by decide), h3, xorBlock_zero, Environment.decryptBlock_encryptBlock _ hk]

/-- Valid padding of 16 bytes, and each padding error, under whatever block cipher (V-PAD-2, V-PAD-3, V-PAD-9). -/
theorem witness_CbcdecWritesTheUnpaddedPlaintext (b : Block) (D : Block → Block)
    (hD : D = Config.env.decryptBlock params (bytesAt (decRun b) 0x100 16)) :
    (decRun b).latch = some decLatch ∧ (decRun b).raced = false ∧ 32 ≤ decLatch.len.toNat ∧
    decLatch.len.toNat % 16 = 0 ∧ blockOperandsFit (decRun b) decLatch (decLatch.len.toNat - 17) ∧
    (b = blockAt (List.replicate 16 0x10#8) 0 →
      padCheck (lastPlainBlock D (blockAt (bytesAt (decRun b) 0x300 32) 0) ((bytesAt (decRun b) 0x300 32).drop 16)) =
        .ok 16) ∧
    (b = blockAt (List.replicate 16 0#8) 0 →
      padCheck (lastPlainBlock D (blockAt (bytesAt (decRun b) 0x300 32) 0) ((bytesAt (decRun b) 0x300 32).drop 16)) =
        .error .paddingCount) ∧
    (b = blockAt (List.replicate 15 0x0f#8 ++ [0x10#8]) 0 →
      padCheck (lastPlainBlock D (blockAt (bytesAt (decRun b) 0x300 32) 0) ((bytesAt (decRun b) 0x300 32).drop 16)) =
        .error .paddingBytes) := by
  rw [decRun_last b D hD]
  refine ⟨rfl, rfl, by decide, by decide, ?_, ?_, ?_, ?_⟩
  · change blockOperandsFit (running decLatch [] []) decLatch _
    unfold blockOperandsFit
    decide
  all_goals (rintro rfl; decide +kernel)

theorem witness_CbcdecPaddingErrorsExactly (b : Block) :
    (decRun b).latch = some decLatch ∧ (decRun b).raced = false ∧ 32 ≤ decLatch.len.toNat ∧
    decLatch.len.toNat % 16 = 0 ∧ blockOperandsFit (decRun b) decLatch (decLatch.len.toNat - 17) ∧
    ∃ t, exec .cbcdec (decRun b) = .next t :=
  have h := witness_CbcdecWritesTheUnpaddedPlaintext b _ rfl
  ⟨h.1, h.2.1, h.2.2.1, h.2.2.2.1, h.2.2.2.2.1, _, exec_of_latch rfl _⟩

theorem witness_CbcencBlobFormat :
    encRun.latch = some encLatch ∧ encRun.raced = false ∧ ∃ t, exec .cbcenc encRun = .next t ∧ t.err = 0#4 :=
  ⟨rfl, rfl, _, exec_of_latch rfl _, rfl⟩

/-- The window of the running XOR, its first and last byte and the bytes beside it; the last byte of DMEM and the first
address past it. -/
theorem witness_HostDmemReadReturnsByteOrFreeValue :
    hostMoves { xorRun with turns := [.host] } ∧ xorRun.busy = true ∧ xorRun.latch = some xorLatch ∧
    decode xorLatch.cmd = .ok .xor ∧ inDest .xor xorLatch 0x300 ∧ inDest .xor xorLatch 0x301 ∧
    ¬inDest .xor xorLatch 0x2FF ∧ ¬inDest .xor xorLatch 0x302 ∧
    0xFFFF < xorRun.params.memSize ∧ xorRun.params.memSize ≤ 0x10000 := by
  simp only [inDest, destLength]; decide

/-- The bytes at the ends of the three windows of the running XOR and a byte beside them. -/
theorem witness_HostDmemWriteStoresAndMarksRaces :
    hostMoves { xorRun with turns := [.host] } ∧ decode xorLatch.cmd = .ok .xor ∧
    inInput .xor xorLatch 0x100 ∧ inInput .xor xorLatch 0x201 ∧ inDest .xor xorLatch 0x301 ∧
    ¬(inInput .xor xorLatch 0x102 ∨ inDest .xor xorLatch 0x102) ∧ 0x301 < xorRun.params.memSize := by
  simp only [inInput, inDest, destLength]; decide

/-- The second XOR of V-XOR-2, on the output of the first. -/
theorem witness_XorTwiceRestoresTheData :
    ∃ (t u v : State) (M : Latch), xorRun.raced = false ∧ exec .xor xorRun = .next t ∧ t.err = 0#4 ∧
      u.latch = some M ∧ u.raced = false ∧ u.dmem = t.dmem ∧ M.src = xorLatch.dst ∧ M.len = xorLatch.len ∧
      bytesAt u M.key.toNat M.len.toNat = bytesAt xorRun xorLatch.key.toNat xorLatch.len.toNat ∧
      exec .xor u = .next v ∧ v.err = 0#4 := by
  let t := complete Config.env .xor runXor xorLatch xorRun
  let M : Latch := ⟨2#32, 0x300#32, 2#32, 0x200#32, 2#32, 0x400#32⟩
  let u : State := { t with latch := some M }
  exact ⟨t, u, complete Config.env .xor runXor M u, M, rfl, exec_of_latch rfl _, rfl, rfl, rfl, rfl, rfl, rfl,
    by decide, exec_of_latch rfl _, rfl⟩

theorem witness_Rc4MachineRunsKsaThenPrga :
    KsaState.start.n < 256 ∧ [0x4b#8] ≠ [] ∧ (0#8 : Byte) = BitVec.ofNat 8 KsaState.start.n := by decide

theorem witness_Rc4StateStaysAPermutation : [0x41#8] ≠ ([] : List Byte) ∧ 256 ≤ 256 := by decide

/-- The second RC4 of P1, in place on the output of the first. -/
theorem witness_Rc4TwiceRestoresTheData :
    ∃ (t u v : State) (M : Latch), rc4Run.raced = false ∧ exec .rc4 rc4Run = .next t ∧ t.err = 0#4 ∧
      u.latch = some M ∧ u.raced = false ∧ u.dmem = t.dmem ∧ M.src = rc4Latch.dst ∧ M.len = rc4Latch.len ∧
      bytesAt u M.key.toNat M.klen.toNat = bytesAt rc4Run rc4Latch.key.toNat rc4Latch.klen.toNat ∧
      exec .rc4 u = .next v ∧ v.err = 0#4 ∧ 1 ≤ [0x41#8].length := by
  let t := complete Config.env .rc4 runRc4 rc4Latch rc4Run
  let u : State := { t with latch := some rc4Latch }
  have ht : u.dmem = Memory.writeBytes [] 0x200 (prga (ksa (Memory.readBytes Config.env [] 0x100 9))
    (Memory.readBytes Config.env [] 0x200 11)) := rfl
  exact ⟨t, u, complete Config.env .rc4 runRc4 rc4Latch u, rc4Latch, rfl, exec_of_latch rfl _, rfl, rfl, rfl, rfl, rfl,
    rfl, (bytesAt_below ht (by decide)).trans (Memory.readBytes_eq_map _ _ _ _), exec_of_latch rfl _, rfl, by decide⟩

theorem witness_KsaDependsOnTheFirst256KeyBytes :
    (∀ n, n < 256 → [0#8].getD (n % 1) 0#8 = (List.replicate 8 0#8).getD (n % 8) 0#8) ∧
    256 < (List.replicate 257 0#8).length := by
  have h : ∀ k, k < 8 → 0#8 = (List.replicate 8 0#8).getD k 0#8 := by decide
  refine ⟨fun n _ => ?_, by rw [List.length_replicate]; decide⟩
  rw [Nat.mod_one]
  exact h _ (Nat.mod_lt _ (by decide))

theorem witness_PaddingShape : (List.replicate 16 0#8).length % 16 = 0 := by decide

/-- N = 0, 17; N = 16 and N = 2 with a wrong byte; N = 1 and N = 16 valid. -/
theorem witness_PaddingValidatorAnswers :
    ((blockAt (List.replicate 16 0#8) 0).toList.getD 15 0#8).toNat < 1 ∧
    16 < ((blockAt (List.replicate 16 0x11#8) 0).toList.getD 15 0#8).toNat ∧
    ((blockAt (List.replicate 15 0x0f#8 ++ [0x10#8]) 0).toList.getD 15 0#8).toNat = 16 ∧
    ((blockAt (List.replicate 15 0x0f#8 ++ [0x10#8]) 0).toList.getD 0 0#8).toNat ≠ 16 ∧
    (∀ k, k < 16 → ((blockAt (List.replicate 16 0x10#8) 0).toList.getD k 0#8).toNat = 16) ∧
    ((blockAt (List.replicate 16 0x01#8) 0).toList.getD 15 0#8).toNat = 1 := by decide +kernel

/-- Two blocks: the first and the one after it. -/
theorem witness_CbcEncryptionChains :
    (List.replicate 32 0#8).length % 16 = 0 ∧ 0 < (List.replicate 32 0#8).length / 16 ∧
    1 < (List.replicate 32 0#8).length / 16 := by decide

theorem witness_CbcDecryptionChains :
    (List.replicate 32 0#8).length % 16 = 0 ∧ 0 < (List.replicate 32 0#8).length / 16 ∧
    1 < (List.replicate 32 0#8).length / 16 := by decide

def encBlob : List Byte :=
  iv ++ cbcEnc (Config.env.encryptBlock params (Memory.readBytes Config.env [] 0x100 16)) (blockAt iv 0)
    (pad (Memory.readBytes Config.env [] 0x200 1))

theorem length_encBlob : encBlob.length = 32 := by
  rw [encBlob, List.length_append, length_cbcEnc, length_pad, Memory.length_readBytes]
  rfl

theorem runCbcenc_encRun :
    (runCbcenc Config.env encLatch encRun).1 = .ok encBlob := rfl

/-- The CBCENC of `encRun` completes. -/
theorem encRun_completes :
    ∃ t, exec .cbcenc encRun = .next t ∧ t.err = 0#4 ∧ t.raced = false ∧ t.params = params ∧
      t.dmem = Memory.writeBytes [] 0x300 encBlob ∧ t.outlen = 32#32 := by
  refine ⟨_, exec_unraced (s := encRun) (L := encLatch) rfl rfl .cbcenc, ?_⟩
  rw [show checkError encRun.params .cbcenc encLatch = none by decide]
  simp only [runOf, runCbcenc_encRun]
  rw [(runCbcenc_same Config.env encLatch encRun).succeed_eq]
  exact ⟨rfl, rfl, rfl, by simp only [State.succeed_dmem, encRun, running_dmem]; rfl,
    by simp only [State.succeed_outlen, length_encBlob]⟩

/-- A key of an accepted size for the pipelines, and for the commands CBCDEC of the blob of V-CBC-2 with the same key
bytes, to 0x500. -/
theorem witness_CbcRoundTripRestoresThePlaintext :
    params.acceptsKey (List.replicate 16 0#8).length = true ∧ ∃ (t u : State) (M : Latch), encRun.raced = false ∧ exec .cbcenc encRun = .next t ∧ t.err = 0#4 ∧
      u.latch = some M ∧ u.raced = false ∧ u.dmem = t.dmem ∧ M.src = encLatch.dst ∧ M.len = t.outlen ∧
      bytesAt u M.key.toNat M.klen.toNat = bytesAt encRun encLatch.key.toNat encLatch.klen.toNat ∧
      blockOperandsFit u M (M.len.toNat - 17) := by
  refine ⟨by decide, ?_⟩
  obtain ⟨t, h, he, hr, hp, hm, ho⟩ := encRun_completes
  let M : Latch := ⟨5#32, 0x300#32, 32#32, 0x100#32, 16#32, 0x500#32⟩
  let u : State := { t with latch := some M }
  have hu : u.dmem = Memory.writeBytes [] 0x300 encBlob := hm
  refine ⟨t, u, M, rfl, h, he, rfl, hr, rfl, rfl, ho.symm, ?_, ?_⟩
  · exact (bytesAt_below hu (by decide)).trans (Memory.readBytes_eq_map _ _ _ _)
  · unfold blockOperandsFit fits accepted
    simp only [u, hp]
    decide

/-- A state that meets the invariant with a command running, and its step. -/
theorem witness_EveryStepKeepsTheInvariant : xorRun.Inv ∧ ∃ t, step xorRun = .next t :=
  ⟨⟨rfl, by decide, by decide, .inl ⟨rfl, rfl⟩, by decide, ⟨rfl, rfl⟩, by decide, rfl, rfl⟩, _, rfl⟩

end Sys2Proof.Tests
end

section
/-! PROOFS. Host accesses to the register block (10_state R22 to R36): what one supported access does to the machine,
what a slot reads and what a write to it changes, and the obligations O11, O12, O13 and O18. -/

open Sys2Proof Sys2Proof.Machine Sys2Proof.Claims

namespace Sys2Proof.Proofs

/-! ### A step that belongs to the host -/

/-- The host moves when it is its turn and it has a statement left (R59). -/
theorem nextAgent_of_hostMoves {s : State} (hm : hostMoves s) (hi : s.inputs ≠ []) : s.nextAgent = .host := by
  unfold State.nextAgent
  rcases ht : s.turns with _ | ⟨a, ts⟩
  · obtain h | ⟨hb, -⟩ := hm
    · simp [ht] at h
    · simp [hb]
  · cases a with
    | host => simp [hi]
    | core =>
      obtain h | ⟨hb, -⟩ := hm
      · simp [ht] at h
      · simp [hb]
    | reset => simp [hostMoves, ht] at hm

theorem step_eq_hostStep {s : State} (hm : hostMoves s) (hi : s.inputs ≠ []) :
    step s = hostStep Config.env s.popTurn := by
  simp only [step, stepWith, nextAgent_of_hostMoves hm hi]

/-- An aligned 32-bit access inside the block reaches the slot at its offset (R23). -/
theorem slotOf_coreBase_add (p : Params) {off : Nat} (ha : off % 4 = 0) (hr : off ≤ 0xFC) :
    slotOf p (p.coreBase + off) 32 = some off := by
  simp [slotOf, supportedAccess, ha, hr]

/-- A supported host write is a write of the slot, once its turn and statement are taken (R23, R24). -/
theorem step_of_writesAt {s : State} {off : Nat} {v : Word} {rest : List HostStmt} (hw : writesAt s off v rest)
    (ha : off % 4 = 0) (hr : off ≤ 0xFC) : step s = .next ((s.popTurn.writeSlot off v).advance rest) := by
  obtain ⟨hm, hi⟩ := hw
  have hslot := slotOf_coreBase_add s.params ha hr
  rw [step_eq_hostStep hm (by simp [hi])]
  simp [hostStep, hi, hostBusWrite, hslot]

/-! ### The slots of the block -/

theorem regOffset_le (r : Reg) : regOffset r ≤ 0x30 := by cases r <;> decide

/-- No register lies past KSIZES: the slots from 0x34 on are reserved (R22). -/
theorem regAt_eq_none_of_reserved {off : Nat} (h : 0x34 ≤ off) : regAt off = none := by
  rcases hr : regAt off with _ | r
  · rfl
  · have ho := regAt_eq_some hr
    have hle := regOffset_le r
    omega

theorem readSlot_reserved (s : State) {off : Nat} (h : 0x34 ≤ off) : s.readSlot off = 0#32 := by
  simp [State.readSlot, regAt_eq_none_of_reserved h]

theorem writeSlot_reserved (s : State) {off : Nat} (h : 0x34 ≤ off) (v : Word) : s.writeSlot off v = s := by
  simp [State.writeSlot, regAt_eq_none_of_reserved h]

/-- ID, OUTLEN, ERRINFO, BLKSZ and KSIZES are read-only (R24). -/
theorem writeSlot_readOnly (s : State) {off : Nat}
    (h : off = 0x00 ∨ off = 0x24 ∨ off = 0x28 ∨ off = 0x2C ∨ off = 0x30) (v : Word) : s.writeSlot off v = s := by
  rcases h with rfl | rfl | rfl | rfl | rfl <;> rfl

theorem writeSlot_ctrl (s : State) (v : Word) : s.writeSlot 0x04 v = { s with ie := v.getLsbD 0 } := rfl

theorem writeSlot_status (s : State) (v : Word) : s.writeSlot 0x08 v = s.acknowledge v := rfl

/-! ### Reserved bits -/

theorem getLsbD_append_of_le {m k n : Nat} (x : BitVec m) (y : BitVec k) (h : k ≤ n) :
    (x ++ y).getLsbD n = x.getLsbD (n - k) := by
  rw [BitVec.getLsbD_append, if_neg (Nat.not_lt.mpr h)]

/-- The bits of a register above the width of its field read 0. -/
theorem getLsbD_zero_append {m k n : Nat} (x : BitVec k) (h : k ≤ n) : ((0#m) ++ x).getLsbD n = false := by
  rw [getLsbD_append_of_le _ _ h, BitVec.getLsbD_zero]

theorem ctrl_reserved_bits (s : State) {n : Nat} (h : 1 ≤ n) : (s.readSlot 0x04).getLsbD n = false :=
  getLsbD_zero_append (BitVec.ofBool s.ie) h

theorem errinfo_reserved_bits (s : State) {n : Nat} (h : 8 ≤ n) : (s.readSlot 0x28).getLsbD n = false :=
  getLsbD_zero_append s.cause h

/-- Past BUSY, DONE and OVR, STATUS is the unused bit 3 and above it ERR (R27). -/
theorem statusWord_getLsbD_of_le (s : State) {n : Nat} (h : 3 ≤ n) :
    s.statusWord.getLsbD n = (0#24 ++ s.err ++ 0#1).getLsbD (n - 3) :=
  calc
    _ = (0#24 ++ s.err ++ 0#1 ++ BitVec.ofBool s.ovr ++ BitVec.ofBool s.done).getLsbD (n - 1) :=
      getLsbD_append_of_le _ _ (by omega)
    _ = (0#24 ++ s.err ++ 0#1 ++ BitVec.ofBool s.ovr).getLsbD (n - 1 - 1) := getLsbD_append_of_le _ _ (by omega)
    _ = _ := getLsbD_append_of_le _ _ (by omega)

/-- Bit 3 of STATUS and the bits above ERR are reserved (R24, R27). -/
theorem status_reserved_bits (s : State) {n : Nat} (h : n = 3 ∨ 8 ≤ n) : (s.readSlot 0x08).getLsbD n = false := by
  refine (statusWord_getLsbD_of_le s (by omega)).trans ?_
  rcases h with rfl | h
  · exact BitVec.getLsbD_append.trans rfl
  · rw [getLsbD_append_of_le _ _ (by omega), getLsbD_zero_append _ (by omega)]

/-- A word of 256 or more has a reserved bit set, and the reserved bits are judged first (R70, R74). -/
theorem decode_reservedBits_of_le {w : Word} (h : 256 ≤ w.toNat) : decode w = .error .reservedBits := by
  have hne : rsvdField w ≠ 0#24 := by
    intro h0
    have hn : (rsvdField w).toNat = 0 := by rw [h0]; rfl
    rw [rsvdField, BitVec.extractLsb'_toNat, Nat.shiftRight_eq_div_pow] at hn
    have := w.isLt
    omega
  simp [decode, hne]

/-- Settles O11: reserved slots, read-only registers and reserved bits, each by its own lemma. -/
theorem reservedAndReadOnlyIgnoreWrites : Obligations.ReservedAndReadOnlyIgnoreWrites := by
  unfold Obligations.ReservedAndReadOnlyIgnoreWrites
  refine ⟨?ignored, fun s off hlo _ => readSlot_reserved s hlo, fun s n => ctrl_reserved_bits s,
    fun s n => status_reserved_bits s, fun s n => errinfo_reserved_bits s, ?ctrl, ?status,
    fun w => decode_reservedBits_of_le⟩
  case ignored =>
    intro s off v rest hw hoff
    have hkeep : s.popTurn.writeSlot off v = s.popTurn := by
      by_cases hres : 0x34 ≤ off
      · exact writeSlot_reserved _ hres v
      · exact writeSlot_readOnly _ (by omega) v
    rw [step_of_writesAt hw (by omega) (by omega), hkeep]
    rfl
  case ctrl =>
    intro s v w h
    rw [writeSlot_ctrl, writeSlot_ctrl, h]
  case status =>
    intro s v w h1 h2
    simp only [writeSlot_status, State.acknowledge, h1, h2]

/-! ### CTRL -/

/-- CTRL shows the one bit a write of it keeps (R26). -/
theorem readReg_ctrl_of_ie {t : State} {v : Word} (h : t.ie = v.getLsbD 0) : t.readReg .ctrl = v &&& 1#32 := by
  rw [BitVec.and_one_eq_setWidth_ofBool_getLsbD, ← h, State.readReg]
  cases t.ie <;> rfl

/-- Settles O12: the write is `writeSlot_ctrl`, which touches IE alone. -/
theorem ctrlWriteSetsInterruptEnable : Obligations.CtrlWriteSetsInterruptEnable := by
  refine ⟨fun s v rest hw => ⟨_, step_of_writesAt hw (by decide) (by decide), rfl, readReg_ctrl_of_ie rfl, ?_⟩, rfl⟩
  change (v.getLsbD 0 && s.done) = _
  cases v.getLsbD 0 <;> rfl

/-! ### STATUS -/

/-- DONE and OVR are W1C: a one clears the flag, a zero keeps it (R28). -/
theorem acknowledge_eq_ite (s : State) (v : Word) :
    s.acknowledge v = { s with
      done := if v.getLsbD 1 = true then false else s.done
      ovr := if v.getLsbD 2 = true then false else s.ovr } := by
  unfold State.acknowledge
  cases v.getLsbD 1 <;> cases v.getLsbD 2 <;> simp

/-- Settles O13: the write is an acknowledge, and the invariant separates BUSY from DONE. -/
theorem statusWriteClearsDoneAndOvr : Obligations.StatusWriteClearsDoneAndOvr := by
  refine ⟨fun s v rest hw => ?_, fun s hs hb => ?_⟩
  · rw [step_of_writesAt hw (by decide) (by decide), writeSlot_status, acknowledge_eq_ite]
    rfl
  · simpa [hb] using hs.not_busy_and_done

/-! ### The interrupt output -/

/-- However a command completes, DONE is set and IE keeps its value, so IRQ is IE (R36, R109, R110). -/
theorem irq_of_exec {i : Instr} {s t : State} (h : exec i s = .next t) : t.irq = s.ie := by
  obtain ⟨L, -, rfl⟩ := exec_next h
  have hrun := runOf_same i Config.env L s
  rcases complete_cases Config.env i (runOf i) L s with ⟨e, -, hc⟩ | ⟨e, -, -, hc⟩ | ⟨out, -, -, hc⟩
  · rw [hc]
    simp [State.irq]
  · rw [hc, hrun.failWith_eq]
    simp [State.irq]
  · rw [hc, (hrun.outputBytes Config.env out).succeed_eq]
    simp [State.irq]

/-- Settles O18: IRQ follows the two flags through completion, issue, acknowledge and overrun. -/
theorem irqFollowsEnableAndDone : Obligations.IrqFollowsEnableAndDone :=
  ⟨fun _ => rfl, rfl, fun _ _ _ => irq_of_exec, fun w s => by simp [State.irq],
    fun v s h => by simp [State.irq, h], fun _ _ => rfl⟩

end Sys2Proof.Proofs
end

section
/-! PROOFS. The decoder and the encoder (30_encoding R70, R71, R74): the two fields of a word, the opcode map as the
inverse of the OP column, the one word that decodes to each command, and the obligation O2. -/

namespace Sys2Proof.Proofs

/-- RSVD above OP is the whole word (R70). -/
theorem rsvdField_append_opField (w : Word) : rsvdField w ++ opField w = w :=
  (BitVec.extractLsb'_append_extractLsb'_eq_extractLsb' rfl).trans BitVec.extractLsb'_eq_self

/-- The word of every command has the shape stated per command under `Laws.WordShape`. -/
theorem wordShape : ∀ i : Instr, Laws.WordShape.Statement i
  | .genkey => Laws.WordShape.genkey
  | .xor => Laws.WordShape.xor
  | .rc4 => Laws.WordShape.rc4
  | .cbcenc => Laws.WordShape.cbcenc
  | .cbcdec => Laws.WordShape.cbcdec

/-- A word is the encoding of a command exactly when RSVD is 0 and OP is the command's opcode. -/
theorem eq_encode_iff_fields {w : Word} {i : Instr} :
    w = encode i ↔ rsvdField w = 0#24 ∧ opField w = opcodeOf i := by
  constructor
  · rintro rfl
    obtain ⟨-, hrsvd, hop, -⟩ := wordShape i
    exact ⟨hrsvd, hop⟩
  · rintro ⟨hrsvd, hop⟩
    rw [← rsvdField_append_opField w, hrsvd, hop, encode]

/-- The opcode map is the inverse of the OP column (R71). -/
theorem opcodeMap_eq_some_iff {op : BitVec 8} {i : Instr} : opcodeMap op = some i ↔ op = opcodeOf i := by
  constructor
  · intro h
    unfold opcodeMap at h
    split_ifs at h <;> cases h <;> assumption
  · rintro rfl
    cases i <;> rfl

/-- Decoding selects by the two fields: the reserved bits, then the opcode map (R74). -/
theorem decode_eq_ok_iff_fields {w : Word} {i : Instr} :
    decode w = .ok i ↔ rsvdField w = 0#24 ∧ opcodeMap (opField w) = some i := by
  unfold decode
  split_ifs with hrsvd
  · simp [hrsvd]
  · cases opcodeMap (opField w) <;> simp [not_not.mp hrsvd]

/-- The encoding of a command is the one word that decodes to it. -/
theorem decode_eq_ok_iff {w : Word} {i : Instr} : decode w = .ok i ↔ w = encode i := by
  rw [decode_eq_ok_iff_fields, opcodeMap_eq_some_iff, eq_encode_iff_fields]

/-- Settles O2: the match values of R71 are the encodings, and only the encoding decodes to a command. -/
theorem decodeSelectsExactlyTheOpcodeMap : Obligations.DecodeSelectsExactlyTheOpcodeMap := by
  intro w i
  rw [decode_eq_ok_iff]
  cases i <;> simp [encode, opcodeOf]

end Sys2Proof.Proofs
end

section
/-! PROOFS. The life of a command (40_command_framework R102, R105, R113): the issue as a write of CMD, the check pipeline
in the statements' own words (`firstError`), the entropy a run takes, and the obligations O15 and O32. -/

open Sys2Proof Sys2Proof.Machine Sys2Proof.Claims

namespace Sys2Proof.Proofs

/-! ### The issue -/

/-- A write of CMD issues while BUSY is 0 (R102). -/
theorem writeSlot_cmd_of_idle {s : State} (h : s.busy = false) (w : Word) : s.writeSlot 0x0C w = s.issue w :=
  calc
    s.writeSlot 0x0C w = s.writeCmd w := rfl
    _ = s.issue w := if_neg (by simp [h])

/-- Settles O15: the write is an issue, which clears DONE and with it IRQ. -/
theorem issueLatchesAndGoesBusy : Obligations.IssueLatchesAndGoesBusy := by
  intro s w rest hw hidle
  have hidle' : s.popTurn.busy = false := hidle
  have hstep : step s = .next ((s.popTurn.issue w).advance rest) := by
    rw [step_of_writesAt hw (by decide) (by decide), writeSlot_cmd_of_idle hidle']
  exact ⟨_, hstep, by simp [State.irq], rfl⟩

/-! ### The check pipeline in the words of R105 -/

/-- The operand preconditions, over the command. -/
theorem preconditionError_eq_ite (s : State) (i : Instr) (L : Latch) :
    preconditionError s.params i L =
      if i = .xor ∧ L.klen ≠ L.len then some .lengthMismatch
      else if i = .rc4 ∧ L.klen = 0#32 then some .emptyKey
      else if (i = .cbcenc ∨ i = .cbcdec) ∧ ¬accepted s L.klen.toNat then some .keySize
      else none := by
  have hzero : L.klen = 0#32 ↔ L.klen.toNat = 0 := BitVec.toNat_inj.symm
  simp only [accepted, ← Params.acceptsKey_iff, hzero]
  cases i <;> simp [preconditionError, -Bool.not_eq_true]

/-- The blob format checks, over the command. -/
theorem formatError_eq_ite (i : Instr) (L : Latch) :
    formatError i L =
      if i = .cbcdec ∧ L.len.toNat < 32 then some .formatShort
      else if i = .cbcdec ∧ L.len.toNat % 16 ≠ 0 then some .formatLength
      else none := by
  cases i <;> simp [formatError]

/-- The destination window has the length R106 gives it. -/
@[simp] theorem windows_dest_size (i : Instr) (L : Latch) : (windows i L).dest.size = destLength i L := by
  cases i <;> rfl

theorem inRange_eq_false_iff_not_fits (s : State) (w : Window) :
    w.inRange s.params = false ↔ ¬fits s w.start w.size := by
  rw [fits, ← Window.inRange_iff, Bool.not_eq_true]

theorem overlaps_iff_not_apart (v w : Window) : v.overlaps w = true ↔ ¬apart v.start v.size w.start w.size := by
  rw [Window.overlaps_iff, not_not]

/-- The range checks, over the command: GENKEY has a destination only. -/
theorem rangeError_eq_ite (s : State) (i : Instr) (L : Latch) :
    rangeError s.params i L =
      if i ≠ .genkey ∧ ¬fits s L.src.toNat L.len.toNat then some .rangeSource
      else if i ≠ .genkey ∧ ¬fits s L.key.toNat L.klen.toNat then some .rangeKey
      else if ¬fits s L.dst.toNat (destLength i L) then some .rangeDest
      else none := by
  simp only [rangeError, inRange_eq_false_iff_not_fits, windows_dest_start, windows_dest_size]
  cases i <;> simp [windows, Window.unused]

/-- The overlap check, over the command: only XOR and RC4 may run in place (R108). -/
theorem overlapBad_iff (i : Instr) (L : Latch) :
    overlapBad i L = true ↔ i ≠ .genkey ∧
      (¬apart L.dst.toNat (destLength i L) L.key.toNat L.klen.toNat ∨
        (¬apart L.dst.toNat (destLength i L) L.src.toNat L.len.toNat ∧
          ¬((i = .xor ∨ i = .rc4) ∧ L.dst = L.src))) := by
  cases i <;> simp [overlapBad, overlaps_iff_not_apart, windows, destLength, blobLength]

/-- The model's pipeline reports what the pipeline of R105 reports, at every command and latch. -/
theorem firstError_eq_checkError (s : State) (i : Instr) (L : Latch) :
    firstError s i L = (checkError s.params i L).map fun e => (e.code, e.cause) := by
  simp only [firstError, checkError, preconditionError_eq_ite, formatError_eq_ite, rangeError_eq_ite, overlapError,
    overlapBad_iff]
  split_ifs <;> rfl

theorem firstError_eq_none_iff {s : State} {i : Instr} {L : Latch} :
    firstError s i L = none ↔ checkError s.params i L = none := by
  rw [firstError_eq_checkError, Option.map_eq_none_iff]

/-! ### The entropy a command takes -/

/-- The state with the entropy taken that a run of the command takes: one draw for GENKEY and CBCENC, else none (R113). -/
def afterDraw (i : Instr) (s : State) : State :=
  if i = .genkey ∨ i = .cbcenc then s.consumeEntropy else s

/-- A run leaves the state of its draw, but for the hidden state and the count of free bytes. -/
theorem runOf_state (i : Instr) (env : Environment) (L : Latch) (s : State) :
    ∃ r c f, (runOf i env L s).2 = { afterDraw i s with rc4 := r, cbc := c, freeDraws := f } := by
  cases i with
  | genkey => exact ⟨_, _, _, runGenkey_state env L s⟩
  | xor =>
    obtain ⟨f, h, -⟩ := State.readWindow_twice env (windows .xor L).source (windows .xor L).key s
    exact ⟨_, _, f, h⟩
  | rc4 =>
    obtain ⟨f, h, -⟩ := State.readWindow_twice env (windows .rc4 L).key (windows .rc4 L).source s
    rw [runOf, runRc4_eq, h]
    exact ⟨_, s.cbc, f, rfl⟩
  | cbcenc =>
    obtain ⟨f, h, -⟩ := State.readWindow_twice env (windows .cbcenc L).key (windows .cbcenc L).source s
    rcases hk : s.readWindow env (windows .cbcenc L).key with ⟨k, s₁⟩
    rcases hP : s₁.readWindow env (windows .cbcenc L).source with ⟨P, s₂⟩
    simp only [hk, hP] at h
    rw [runOf, runCbcenc_eq env L s s₁ s₂ k P hk hP, h]
    split <;> exact ⟨s.rc4, _, f, rfl⟩
  | cbcdec =>
    obtain ⟨f, h, -⟩ := State.readWindow_twice env (windows .cbcdec L).key (windows .cbcdec L).source s
    rcases hk : s.readWindow env (windows .cbcdec L).key with ⟨k, s₁⟩
    rcases hB : s₁.readWindow env (windows .cbcdec L).source with ⟨Bl, s₂⟩
    simp only [hk, hB] at h
    rw [runOf, runCbcdec_eq env L s s₁ s₂ k Bl hk hB, h]
    split <;> exact ⟨s.rc4, _, f, rfl⟩

@[simp] theorem outputBytes_entropyDraws (env : Environment) (out : List Byte) (s : State) :
    (s.outputBytes env out).2.entropyDraws = s.entropyDraws := by
  obtain ⟨f, h, -⟩ := State.outputBytes_state env out s
  rw [h]

@[simp] theorem outputBytes_entropyAnswers (env : Environment) (out : List Byte) (s : State) :
    (s.outputBytes env out).2.entropyAnswers = s.entropyAnswers := by
  obtain ⟨f, h, -⟩ := State.outputBytes_state env out s
  rw [h]

/-- A command that passes its checks takes the entropy of its run, whether the run ends in success or in error. -/
theorem complete_entropy_of_checked {s : State} {i : Instr} {L : Latch} (env : Environment)
    (hc : checkError s.params i L = none) :
    (complete env i (runOf i) L s).entropyDraws = (afterDraw i s).entropyDraws ∧
      (complete env i (runOf i) L s).entropyAnswers = (afterDraw i s).entropyAnswers := by
  obtain ⟨r, c, f, hrun⟩ := runOf_state i env L s
  rcases complete_cases env i (runOf i) L s with ⟨e, he, -⟩ | ⟨e, -, -, ht⟩ | ⟨out, -, -, ht⟩
  · cases hc.symm.trans he
  · simp [ht, hrun]
  · simp [ht, hrun]

/-- A command that fails a check completes with that error and runs nothing (R105, R110). -/
theorem complete_of_checkError {env : Environment} {i : Instr} {run : Run} {L : Latch} {s : State} {e : CmdError}
    (h : checkError s.params i L = some e) : complete env i run L s = s.failWith e := by
  simp [complete, h]

/-- Settles O32: the run is reached exactly when every check passes, and it takes the entropy of `afterDraw`. -/
theorem entropyDrawnExactlyWhenTransformRuns : Obligations.EntropyDrawnExactlyWhenTransformRuns := by
  intro i s t L hL ht
  obtain rfl : complete Config.env i (runOf i) L s = t := by simpa [exec_of_latch hL] using ht
  rw [firstError_eq_none_iff]
  refine ⟨fun ⟨hi, hc⟩ => ?_, fun hn => ?_⟩
  · have hdraw : afterDraw i s = s.consumeEntropy := if_pos hi
    simpa [hdraw] using complete_entropy_of_checked Config.env hc
  · cases hc : checkError s.params i L with
    | some e => simp [complete_of_checkError hc]
    | none =>
      have hdraw : afterDraw i s = s := if_neg fun hi => hn ⟨hi, hc⟩
      simpa [hdraw] using complete_entropy_of_checked Config.env hc

end Sys2Proof.Proofs
end

section
/-! PROOFS. The padding and the chaining of the block cipher (44_cbc R170, R172, R173): the number of padding bytes, what
each block of a chaining loop's output is, and the obligations O54, O56 and O57. -/

open Sys2Proof Sys2Proof.Machine Sys2Proof.Claims

namespace Sys2Proof.Proofs

/-! ### Padding -/

theorem one_le_padCount (P : List Byte) : 1 ≤ padCount P :=
  Nat.sub_pos_of_lt (Nat.mod_lt _ (by decide))

theorem padCount_le (P : List Byte) : padCount P ≤ 16 :=
  Nat.sub_le _ _

/-- A sequence of whole blocks is padded with a whole block. -/
theorem padCount_of_whole_blocks {P : List Byte} (h : P.length % 16 = 0) : padCount P = 16 := by
  rw [padCount, h]

/-- Settles O54: the number is `padCount P`. -/
theorem paddingShape : Obligations.PaddingShape := by
  intro P
  exact ⟨padCount P, rfl, one_le_padCount P, padCount_le P, padCount_of_whole_blocks, rfl, length_pad P⟩

/-! ### The blocks a chaining loop puts out -/

@[simp] theorem getElem_blocksOf (l : List Byte) (m : Nat) (h : m < (blocksOf l).length) :
    (blocksOf l)[m] = blockAt l m := by
  simp [blocksOf]

/-- The first block of a loop over `b :: bs` is the block made of `b`. -/
theorem blockAt_cbcEncLoop_cons_zero (E : Block → Block) (st : CbcState) (b : Block) (bs : List Block) :
    blockAt (cbcEncLoop E st (b :: bs)).1 0 = E (xorBlock b st.prev) :=
  blockAt_bytes_append _ _

/-- The later blocks are those of the loop over the rest, which chains from the ciphertext block of `b`. -/
theorem blockAt_cbcEncLoop_cons_succ (E : Block → Block) (st : CbcState) (b : Block) (bs : List Block) (m : Nat) :
    blockAt (cbcEncLoop E st (b :: bs)).1 (m + 1) =
      blockAt (cbcEncLoop E ⟨E (xorBlock b st.prev), st.m + 1⟩ bs).1 m :=
  blockAt_bytes_append_succ _ _ _

/-- The first block of a loop over `c :: cs` is the block made of `c`. -/
theorem blockAt_cbcDecLoop_cons_zero (D : Block → Block) (st : CbcState) (c : Block) (cs : List Block) :
    blockAt (cbcDecLoop D st (c :: cs)).1 0 = xorBlock (D c) st.prev :=
  blockAt_bytes_append _ _

/-- The later blocks are those of the loop over the rest, which chains from `c` itself. -/
theorem blockAt_cbcDecLoop_cons_succ (D : Block → Block) (st : CbcState) (c : Block) (cs : List Block) (m : Nat) :
    blockAt (cbcDecLoop D st (c :: cs)).1 (m + 1) = blockAt (cbcDecLoop D ⟨c, st.m + 1⟩ cs).1 m :=
  blockAt_bytes_append_succ _ _ _

/-! ### Encryption -/

/-- The encryption loop chains each block to the one it put out before, the first to its chaining register (R172). -/
theorem blockAt_cbcEncLoop (E : Block → Block) (st : CbcState) (bs : List Block) (m : Nat) (h : m < bs.length) :
    blockAt (cbcEncLoop E st bs).1 m =
      E (xorBlock bs[m] (if m = 0 then st.prev else blockAt (cbcEncLoop E st bs).1 (m - 1))) := by
  induction bs generalizing st m with
  | nil => simp at h
  | cons b bs ih =>
    cases m with
    | zero => exact blockAt_cbcEncLoop_cons_zero E st b bs
    | succ m =>
      have hm : m < bs.length := by simpa using h
      rw [blockAt_cbcEncLoop_cons_succ, ih _ _ hm]
      cases m with
      | zero => simp [blockAt_cbcEncLoop_cons_zero]
      | succ m => simp [blockAt_cbcEncLoop_cons_succ]

/-- Settles O56: the loop's law over the blocks of Q, with the IV in the chaining register. -/
theorem cbcEncryptionChains : Obligations.CbcEncryptionChains := by
  intro E iv Q hQ
  have hlen : (cbcEnc E iv Q).length = Q.length := by
    rw [length_cbcEnc, Nat.mul_div_cancel' (Nat.dvd_of_mod_eq_zero hQ)]
  refine ⟨hlen, fun m hm => ?_⟩
  have hm' : m < (blocksOf Q).length := by rwa [length_blocksOf]
  simpa [cbcEnc] using blockAt_cbcEncLoop E ⟨iv, 0⟩ (blocksOf Q) m hm'

/-! ### Decryption -/

/-- The decryption loop chains each block to the block of its input before, the first to its chaining register (R173). -/
theorem blockAt_cbcDecLoop (D : Block → Block) (st : CbcState) (cs : List Block) (m : Nat) (h : m < cs.length) :
    blockAt (cbcDecLoop D st cs).1 m = xorBlock (D cs[m]) ((st.prev :: cs)[m]'(Nat.lt_succ_of_lt h)) := by
  induction cs generalizing st m with
  | nil => simp at h
  | cons c cs ih =>
    cases m with
    | zero => exact blockAt_cbcDecLoop_cons_zero D st c cs
    | succ m =>
      have hm : m < cs.length := by simpa using h
      rw [blockAt_cbcDecLoop_cons_succ, ih _ _ hm]
      rfl

/-- Settles O57: the loop's law over the blocks of C, with the IV in the chaining register. -/
theorem cbcDecryptionChains : Obligations.CbcDecryptionChains := by
  intro D iv C hC
  have hlen : (cbcDec D iv C).length = C.length := by
    rw [length_cbcDec, Nat.mul_div_cancel' (Nat.dvd_of_mod_eq_zero hC)]
  refine ⟨hlen, fun m hm => ?_⟩
  have hm' : m < (blocksOf C).length := by rwa [length_blocksOf]
  have hloop := blockAt_cbcDecLoop D ⟨iv, 0⟩ (blocksOf C) m hm'
  rw [cbcDec, hloop, getElem_blocksOf]
  cases m with
  | zero => rfl
  | succ m => simp

end Sys2Proof.Proofs
end

section
/-! PROOFS. Host accesses the register block does not support (10_state R23; 60_exceptions R216): they reach no slot and
the step is refused, and with it the obligation O10. -/

open Sys2Proof Sys2Proof.Machine Sys2Proof.Claims

namespace Sys2Proof.Proofs

/-- An access of another width, misaligned, or outside the block reaches no slot (R23). -/
theorem slotOf_eq_none_of_unsupported {p : Params} {addr width : Nat}
    (h : width ≠ 32 ∨ addr < p.coreBase ∨ (addr - p.coreBase) % 4 ≠ 0 ∨ p.coreBase + 0xFC < addr) :
    slotOf p addr width = none := by
  rcases hslot : slotOf p addr width with _ | off
  · rfl
  · obtain ⟨hwidth, haddr, halign, hle⟩ := slotOf_eq_some hslot
    omega

theorem hostBusRead_of_slotOf_none {s : State} {addr width : Nat} (h : slotOf s.params addr width = none)
    (rest : List HostStmt) : hostBusRead addr width rest s = .refused .unsupportedRegisterAccess := by
  simp [hostBusRead, h]

theorem hostBusWrite_of_slotOf_none {s : State} {addr width : Nat} (h : slotOf s.params addr width = none)
    (v : Word) (rest : List HostStmt) :
    hostBusWrite addr width v rest s = .refused .unsupportedRegisterAccess := by
  simp [hostBusWrite, h]

/-- Settles O10: the access at the head, a read or a write, finds no slot. -/
theorem unsupportedRegisterAccessIsRefused : Obligations.UnsupportedRegisterAccessIsRefused := by
  intro s addr width v rest hm hi hbad
  have hslot : slotOf s.popTurn.params addr width = none := slotOf_eq_none_of_unsupported hbad
  rcases hi with hread | hwrite
  · calc
      step s = hostStep Config.env s.popTurn := step_eq_hostStep hm (by simp [hread])
      _ = hostBusRead addr width rest s.popTurn := by simp [hostStep, State.popTurn, hread]
      _ = .refused .unsupportedRegisterAccess := hostBusRead_of_slotOf_none hslot rest
  · calc
      step s = hostStep Config.env s.popTurn := step_eq_hostStep hm (by simp [hwrite])
      _ = hostBusWrite addr width v rest s.popTurn := by simp [hostStep, State.popTurn, hwrite]
      _ = .refused .unsupportedRegisterAccess := hostBusWrite_of_slotOf_none hslot v rest

end Sys2Proof.Proofs
end

section
/-! PROOFS. The well-formed command words (30_encoding R70, R71): which opcodes are in the map, that decoding and encoding
are inverse to each other, and the obligations O1 and O3. -/

namespace Sys2Proof.Proofs

/-- The opcodes of the map are those of the commands (R71). -/
theorem opcodeInMap_iff (w : Word) : opcodeInMap w = true ↔ ∃ i : Instr, opField w = opcodeOf i := by
  constructor
  · intro h
    simp only [opcodeInMap, Bool.and_eq_true, decide_eq_true_eq] at h
    obtain ⟨hlo, hhi⟩ := h
    have hop : (w.extractLsb' 0 8).toNat = 1 ∨ (w.extractLsb' 0 8).toNat = 2 ∨ (w.extractLsb' 0 8).toNat = 3 ∨
        (w.extractLsb' 0 8).toNat = 4 ∨ (w.extractLsb' 0 8).toNat = 5 := by omega
    rcases hop with hop | hop | hop | hop | hop
    · exact ⟨.genkey, BitVec.eq_of_toNat_eq hop⟩
    · exact ⟨.xor, BitVec.eq_of_toNat_eq hop⟩
    · exact ⟨.rc4, BitVec.eq_of_toNat_eq hop⟩
    · exact ⟨.cbcenc, BitVec.eq_of_toNat_eq hop⟩
    · exact ⟨.cbcdec, BitVec.eq_of_toNat_eq hop⟩
  · rintro ⟨i, hi⟩
    change w.extractLsb' 0 8 = opcodeOf i at hi
    rw [opcodeInMap, hi]
    cases i <;> rfl

theorem reservedBitsZero_iff (w : Word) : reservedBitsZero w = true ↔ rsvdField w = 0#24 := beq_iff_eq

/-- A word is well formed exactly when it is a command's encoding: its two fields are those of a command. -/
theorem commandWordWellFormed_iff (w : Word) : commandWordWellFormed w = true ↔ ∃ i : Instr, encode i = w := by
  simp only [commandWordWellFormed, Bool.and_eq_true, reservedBitsZero_iff, opcodeInMap_iff, @eq_comm _ (encode _) w,
    eq_encode_iff_fields, exists_and_left]

/-- Settles O3: the encoding is the one word that decodes to its command, and well-formedness is a statement of the two
fields. -/
theorem decodeInvertsEncode : Obligations.DecodeInvertsEncode :=
  ⟨fun _ _ => decode_eq_ok_iff.mpr rfl, fun _ _ h => (decode_eq_ok_iff.mp h).symm, commandWordWellFormed_iff⟩

/-- Settles O1: each of the five words is the encoding of its command. -/
theorem opcodeMapWordsDecode : Obligations.OpcodeMapWordsDecode :=
  ⟨decode_eq_ok_iff.mpr rfl, decode_eq_ok_iff.mpr rfl, decode_eq_ok_iff.mpr rfl, decode_eq_ok_iff.mpr rfl,
    decode_eq_ok_iff.mpr rfl⟩

end Sys2Proof.Proofs
end

section
/-! PROOFS. Whose step comes next (20_memory R59; 40_command_framework R104) and the steps that need no look into a
command: the completion of an illegal word, an idle core, and host accesses to the register block; the obligations O4, O5,
O7, O8, O9, O14, O16 and O17. -/

open Sys2Proof Sys2Proof.Machine Sys2Proof.Claims

namespace Sys2Proof.Proofs

/-! ### Whose step comes next -/

theorem nextAgent_eq_reset_iff (s : State) : s.nextAgent = .reset ↔ s.turns.head? = some .reset := by
  unfold State.nextAgent
  rcases s.turns with _ | ⟨a, ts⟩
  · cases s.busy <;> simp
  · cases a
    · cases s.busy && s.inputs.isEmpty <;> simp
    · cases s.busy <;> simp
    · simp

theorem nextAgent_eq_core_iff (s : State) : s.nextAgent = .core ↔ coreMoves s := by
  unfold State.nextAgent coreMoves
  rcases s.turns with _ | ⟨a, ts⟩
  · cases s.busy <;> simp
  · cases a
    · cases s.busy <;> simp
    · cases s.busy <;> simp
    · simp

theorem nextAgent_eq_host_iff (s : State) :
    s.nextAgent = .host ↔ hostMoves s ∧ (s.busy = true → s.inputs ≠ []) := by
  unfold State.nextAgent hostMoves
  rcases s.turns with _ | ⟨a, ts⟩
  · cases s.busy <;> simp
  · cases a
    · cases s.busy <;> simp
    · cases s.busy <;> simp
    · simp

theorem step_of_coreMoves {s : State} (h : coreMoves s) : step s = coreStep exec s.popTurn := by
  simp only [step, stepWith, (nextAgent_eq_core_iff s).mpr h]

theorem step_of_reset {s : State} (h : s.turns.head? = some .reset) :
    step s = .next (s.popTurn.resetInput Config.env) := by
  simp only [step, stepWith, (nextAgent_eq_reset_iff s).mpr h]

/-! ### The completion of the latched word -/

theorem coreStep_of_decode_ok {s : State} {L : Latch} {i : Instr} (hL : s.latch = some L) (hi : decode L.cmd = .ok i) :
    coreStep exec s = exec i s := by
  simp only [coreStep, hL, hi]

theorem coreStep_of_decode_error {s : State} {L : Latch} {e : DecodeError} (hL : s.latch = some L)
    (he : decode L.cmd = .error e) : coreStep exec s = .next (s.failWith (illegalWordError e)) := by
  simp only [coreStep, hL, he]

/-- Settles O4. -/
theorem stepCompletesTheLatchedCommand : Obligations.StepCompletesTheLatchedCommand := by
  intro s L i hm hL hi
  rw [step_of_coreMoves hm, coreStep_of_decode_ok (s := s.popTurn) hL hi]
  rfl

/-- A word below 256 has no reserved bit set. -/
theorem rsvdField_eq_zero_of_lt {w : Word} (h : w.toNat < 256) : rsvdField w = 0#24 := by
  apply BitVec.eq_of_toNat_eq
  rw [rsvdField, BitVec.extractLsb'_toNat, Nat.shiftRight_eq_div_pow, Nat.div_eq_of_lt h]
  rfl

/-- A word that is no command's encoding is illegal: by its reserved bits if one is set, else by its opcode (R74). -/
theorem decode_of_forall_ne_encode {w : Word} (h : ∀ i : Instr, w ≠ encode i) :
    decode w = .error (if w.toNat / 256 ≠ 0 then .reservedBits else .unknownOpcode) := by
  split_ifs with hw
  · exact decode_reservedBits_of_le (by omega)
  · rcases hd : decode w with e | i
    · have hr : rsvdField w = 0#24 := rsvdField_eq_zero_of_lt (by omega)
      rw [decode, if_neg (not_not.mpr hr)] at hd
      cases ho : opcodeMap (opField w) <;> rw [ho] at hd <;> cases hd
      rfl
    · exact absurd (decode_eq_ok_iff.mp hd) (h i)

/-- Settles O5: the word is illegal, and the core's step is its error completion. -/
theorem illegalWordCompletesWithErrIllegal : Obligations.IllegalWordCompletesWithErrIllegal := by
  intro s L hm hL hne
  rw [step_of_coreMoves hm, coreStep_of_decode_error (s := s.popTurn) hL (decode_of_forall_ne_encode hne)]
  split_ifs <;> rfl

/-- Settles O7: the host's turn, with no statement to perform. -/
theorem idleCoreDoesNothing : Obligations.IdleCoreDoesNothing := by
  intro s hb hi ht
  have hn : s.nextAgent = .host := (nextAgent_eq_host_iff s).mpr ⟨.inr ⟨hb, ht⟩, by simp [hb]⟩
  have hi' : s.popTurn.inputs = [] := hi
  simp only [step, stepWith, hn, hostStep, hi']
  rfl

/-! ### What the slots of the block read -/

/-- The bits of STATUS by their weights (R27). -/
theorem statusWord_eq_ofNat (s : State) :
    s.statusWord = BitVec.ofNat 32 (s.busy.toNat + 2 * s.done.toNat + 4 * s.ovr.toNat + 16 * s.err.toNat) := by
  have h : ∀ (e : BitVec 4) (o d b : Bool),
      0#24 ++ e ++ 0#1 ++ BitVec.ofBool o ++ BitVec.ofBool d ++ BitVec.ofBool b =
        BitVec.ofNat 32 (b.toNat + 2 * d.toNat + 4 * o.toNat + 16 * e.toNat) := by decide
  exact h s.err s.ovr s.done s.busy

/-- A register narrower than the slot reads with zeros above it. -/
theorem zero_append_eq_ofNat {m k : Nat} (x : BitVec k) : (0#m ++ x) = BitVec.ofNat (m + k) x.toNat :=
  have hle : 2 ^ k ≤ 2 ^ (m + k) := Nat.pow_le_pow_right (by decide) (Nat.le_add_left k m)
  BitVec.eq_of_toNat_eq (by simp [Nat.mod_eq_of_lt (Nat.lt_of_lt_of_le x.isLt hle)])

theorem readReg_eq_registerValue (s : State) (r : Reg) : s.readReg r = registerValue s (regOffset r) := by
  cases r with
  | ctrl => cases h : s.ie <;> simp [State.readReg, registerValue, regOffset, h]
  | status => exact statusWord_eq_ofNat s
  | errinfo => exact zero_append_eq_ofNat s.cause
  | _ => rfl

theorem regOffset_ne_of_regAt_eq_none {off : Nat} (h : regAt off = none) (r : Reg) : off ≠ regOffset r := by
  have hr : r ∈ allRegs := by cases r <;> decide
  have := List.find?_eq_none.mp h r hr
  simpa [eq_comm] using this

/-- What a slot reads is what R22's table says of its offset. -/
theorem readSlot_eq_registerValue (s : State) (off : Nat) : s.readSlot off = registerValue s off := by
  rw [State.readSlot]
  rcases hr : regAt off with _ | r
  · have hne := regOffset_ne_of_regAt_eq_none hr
    exact Eq.symm <| (if_neg (hne .id)).trans <| (if_neg (hne .ctrl)).trans <| (if_neg (hne .status)).trans <|
      (if_neg (hne .src)).trans <| (if_neg (hne .len)).trans <| (if_neg (hne .key)).trans <|
      (if_neg (hne .klen)).trans <| (if_neg (hne .dst)).trans <| (if_neg (hne .outlen)).trans <|
      (if_neg (hne .errinfo)).trans <| (if_neg (hne .blksz)).trans <| if_neg (hne .ksizes)
  · rw [← regAt_eq_some hr]
    exact readReg_eq_registerValue s r

/-- Settles O9: the access reaches the slot at its offset, which reads its register's value. -/
theorem hostReadReturnsTheRegisterValue : Obligations.HostReadReturnsTheRegisterValue := by
  intro s off rest hm hi ha hr
  have hslot : slotOf s.popTurn.params (s.params.coreBase + off) 32 = some off := slotOf_coreBase_add s.params ha hr
  have hi' : s.popTurn.inputs = .busRead (s.params.coreBase + off) 32 :: rest := hi
  rw [step_eq_hostStep hm (by simp [hi])]
  simp only [hostStep, hi', hostBusRead, hslot, readSlot_eq_registerValue]
  rfl

/-- Settles O8: the reset state's registers, slot by slot, and the reserved slots by their lemma. -/
theorem resetRegistersRead : Obligations.ResetRegistersRead :=
  ⟨rfl, rfl, rfl, rfl, rfl, rfl, rfl, rfl, rfl, rfl, rfl, rfl, rfl, fun _ => readSlot_reserved State.reset,
    rfl, rfl, rfl, rfl⟩

/-- Settles O17: KSIZES shows the mask by which `acceptsKey` judges. -/
theorem sizeRegistersTellBlockAndKeySizes : Obligations.SizeRegistersTellBlockAndKeySizes := by
  refine fun s => ⟨rfl, fun k hlo hhi => ?_, fun k hk => ?_⟩
  · rw [Params.acceptsKey_iff]
    exact ⟨fun hbit => ⟨hlo, hhi, hbit⟩, fun ⟨_, _, hbit⟩ => hbit⟩
  · obtain ⟨hlo, hhi, -⟩ := (Params.acceptsKey_iff _ k).mp hk
    exact ⟨hlo, hhi⟩

/-! ### Host writes of the parameter registers and of CMD -/

/-- Settles O14: each offset reaches its parameter register. -/
theorem parameterWritesReadBack : Obligations.ParameterWritesReadBack := by
  refine fun s v rest => ⟨fun h => step_of_writesAt h (by decide) (by decide),
    fun h => step_of_writesAt h (by decide) (by decide), fun h => step_of_writesAt h (by decide) (by decide),
    fun h => step_of_writesAt h (by decide) (by decide), fun h => step_of_writesAt h (by decide) (by decide),
    fun off hoff => ?_⟩
  simp only [List.mem_cons, List.not_mem_nil, or_false] at hoff
  rcases hoff with rfl | rfl | rfl | rfl | rfl <;> rfl

/-- A write of CMD while BUSY sets OVR (R103). -/
theorem writeSlot_cmd_of_busy {s : State} (h : s.busy = true) (w : Word) :
    s.writeSlot 0x0C w = { s with ovr := true } :=
  calc
    s.writeSlot 0x0C w = s.writeCmd w := rfl
    _ = { s with ovr := true } := if_pos h

/-- Settles O16. -/
theorem cmdWriteWhileBusyOnlySetsOvr : Obligations.CmdWriteWhileBusyOnlySetsOvr := by
  intro s w rest hw hb
  have hb' : s.popTurn.busy = true := hb
  rw [step_of_writesAt hw (by decide) (by decide), writeSlot_cmd_of_busy hb']
  rfl

end Sys2Proof.Proofs
end

section
/-! PROOFS. What a completion answers and what it depends on (40_command_framework R105 to R112): the answer of a command
is an error or the bytes it writes, and it is a function of the latch, the parameters, the draws and the bytes of the
command's input windows. -/

open Sys2Proof Sys2Proof.Machine Sys2Proof.Claims

namespace Sys2Proof.Proofs

/-! ### What a command reads of the state -/

/-- The states agree in what command `i` reads of them: the parameters, whether it raced, the answers and counters of the
draws, and the bytes of its source and key windows (R112). -/
structure AgreeOnInputs (env : Environment) (i : Instr) (L : Latch) (s s' : State) : Prop where
  params : s'.params = s.params
  raced : s'.raced = s.raced
  entropyAnswers : s'.entropyAnswers = s.entropyAnswers
  entropyDraws : s'.entropyDraws = s.entropyDraws
  freeDraws : s'.freeDraws = s.freeDraws
  source : Memory.readBytes env s'.dmem (windows i L).source.start (windows i L).source.size =
    Memory.readBytes env s.dmem (windows i L).source.start (windows i L).source.size
  key : Memory.readBytes env s'.dmem (windows i L).key.start (windows i L).key.size =
    Memory.readBytes env s.dmem (windows i L).key.start (windows i L).key.size

theorem AgreeOnInputs.refl (env : Environment) (i : Instr) (L : Latch) (s : State) : AgreeOnInputs env i L s s :=
  ⟨rfl, rfl, rfl, rfl, rfl, rfl, rfl⟩

/-- A window reads the same in two states that agree on it, and takes the same free bytes. -/
theorem readWindow_congr {env : Environment} {w : Window} {s s' : State} (hr : s'.raced = s.raced)
    (hf : s'.freeDraws = s.freeDraws)
    (hw : Memory.readBytes env s'.dmem w.start w.size = Memory.readBytes env s.dmem w.start w.size) :
    s'.readWindow env w =
      ((s.readWindow env w).1, { s' with freeDraws := (s.readWindow env w).2.freeDraws }) := by
  cases h : s.raced with
  | false => rw [State.readWindow_unraced h, State.readWindow_unraced (hr.trans h), hw, ← hf]
  | true => simp [State.readWindow, h, hr.trans h, hf]

/-- The same for two windows read one after the other. -/
theorem readWindow_twice_congr {env : Environment} {v w : Window} {s s' : State} (hr : s'.raced = s.raced)
    (hf : s'.freeDraws = s.freeDraws)
    (hv : Memory.readBytes env s'.dmem v.start v.size = Memory.readBytes env s.dmem v.start v.size)
    (hw : Memory.readBytes env s'.dmem w.start w.size = Memory.readBytes env s.dmem w.start w.size) :
    (s'.readWindow env v).1 = (s.readWindow env v).1 ∧
      (s'.readWindow env v).2.readWindow env w = (((s.readWindow env v).2.readWindow env w).1,
        { s' with freeDraws := ((s.readWindow env v).2.readWindow env w).2.freeDraws }) := by
  have h := readWindow_congr hr hf hv
  obtain ⟨f, hs, -⟩ := State.readWindow_state env v s
  rw [hs] at h ⊢
  rw [h]
  exact ⟨rfl, readWindow_congr hr rfl hw⟩

/-- The output takes the same free bytes in two states that agree. -/
theorem outputBytes_congr {env : Environment} {out : List Byte} {s s' : State} (hr : s'.raced = s.raced)
    (hf : s'.freeDraws = s.freeDraws) :
    s'.outputBytes env out =
      ((s.outputBytes env out).1, { s' with freeDraws := (s.outputBytes env out).2.freeDraws }) := by
  cases h : s.raced with
  | false => rw [State.outputBytes_unraced h, State.outputBytes_unraced (hr.trans h), ← hf]
  | true => simp [State.outputBytes, h, hr.trans h, hf]

theorem entropyAnswer_congr {env : Environment} {n : Nat} {s s' : State} (hq : s'.entropyAnswers = s.entropyAnswers)
    (hd : s'.entropyDraws = s.entropyDraws) : s'.entropyAnswer env n = s.entropyAnswer env n := by
  simp only [State.entropyAnswer, hq, hd]

/-- A command that passes its checks and whose run answers an error completes with that error (R110). -/
theorem complete_of_run_error {env : Environment} {i : Instr} {run : Run} {L : Latch} {s : State} {e : CmdError}
    (hc : checkError s.params i L = none) (hr : (run env L s).1 = .error e) :
    complete env i run L s = (run env L s).2.failWith e := by
  rw [complete, hc]
  rcases h : run env L s with ⟨r, s'⟩
  rw [h] at hr
  cases hr
  rfl

/-- A command that passes its checks and whose run answers its output writes it (R109). -/
theorem complete_of_run_ok {env : Environment} {i : Instr} {run : Run} {L : Latch} {s : State} {o : List Byte}
    (hc : checkError s.params i L = none) (hr : (run env L s).1 = .ok o) :
    complete env i run L s = ((run env L s).2.outputBytes env o).2.succeed L.dst.toNat
      ((run env L s).2.outputBytes env o).1 := by
  rw [complete, hc]
  rcases h : run env L s with ⟨r, s'⟩
  rw [h] at hr
  cases hr
  rfl

/-- The run of a command depends on its inputs only (R112). -/
theorem runOf_congr {env : Environment} {i : Instr} {L : Latch} {s s' : State} (h : AgreeOnInputs env i L s s') :
    (runOf i env L s').1 = (runOf i env L s).1 ∧
      (runOf i env L s').2.freeDraws = (runOf i env L s).2.freeDraws := by
  cases i with
  | genkey =>
    simp only [runOf, runGenkey_eq, entropyAnswer_congr h.entropyAnswers h.entropyDraws]
    cases s.entropyAnswer env L.len.toNat <;> exact ⟨rfl, h.freeDraws⟩
  | xor =>
    obtain ⟨h1, h2⟩ := readWindow_twice_congr h.raced h.freeDraws h.source h.key
    simp only [runOf, runXor_eq, h1, h2, and_self]
  | rc4 =>
    obtain ⟨h1, h2⟩ := readWindow_twice_congr h.raced h.freeDraws h.key h.source
    simp only [runOf, runRc4_eq, h1, h2, true_and]
    rfl
  | cbcenc =>
    obtain ⟨h1, h2⟩ := readWindow_twice_congr h.raced h.freeDraws h.key h.source
    obtain ⟨f, hf, -⟩ := State.readWindow_twice env (windows .cbcenc L).key (windows .cbcenc L).source s
    rcases hk : s.readWindow env (windows .cbcenc L).key with ⟨k, s₁⟩
    rcases hP : s₁.readWindow env (windows .cbcenc L).source with ⟨P, s₂⟩
    simp only [hk, hP] at h1 h2 hf
    subst hf
    have ha : ({ s' with freeDraws := f } : State).entropyAnswer env 16 =
        ({ s with freeDraws := f } : State).entropyAnswer env 16 := entropyAnswer_congr h.entropyAnswers h.entropyDraws
    rw [runOf, runCbcenc_eq env L s _ _ k P hk hP, runCbcenc_eq env L s' _ _ k P (Prod.ext h1 rfl) h2, ha, h.params]
    cases ({ s with freeDraws := f } : State).entropyAnswer env 16 <;> exact ⟨rfl, rfl⟩
  | cbcdec =>
    obtain ⟨h1, h2⟩ := readWindow_twice_congr h.raced h.freeDraws h.key h.source
    rcases hk : s.readWindow env (windows .cbcdec L).key with ⟨k, s₁⟩
    rcases hB : s₁.readWindow env (windows .cbcdec L).source with ⟨Bl, s₂⟩
    simp only [hk, hB] at h1 h2
    rw [runOf, runCbcdec_eq env L s _ _ k Bl hk hB, runCbcdec_eq env L s' _ _ k Bl (Prod.ext h1 rfl) h2, h.params]
    cases padCheck (lastPlainBlock (env.decryptBlock s.params k) (blockAt Bl 0) (Bl.drop 16)) <;> exact ⟨rfl, rfl⟩

/-! ### The run of a command that has not raced -/

section Unraced

variable {s : State} (hr : s.raced = false) (env : Environment) (L : Latch)
include hr

theorem runXor_unraced :
    runXor env L s = (.ok (xorBytes (Memory.readBytes env s.dmem L.src.toNat L.len.toNat)
      (Memory.readBytes env s.dmem L.key.toNat L.klen.toNat)), s) := by
  simp only [runXor_eq, State.readWindow_unraced hr, windows]

theorem runRc4_unraced :
    runRc4 env L s = (.ok (prga (ksa (Memory.readBytes env s.dmem L.key.toNat L.klen.toNat))
        (Memory.readBytes env s.dmem L.src.toNat L.len.toNat)),
      (s.ksaPhase (Memory.readBytes env s.dmem L.key.toNat L.klen.toNat)).prgaPhase
        (Memory.readBytes env s.dmem L.src.toNat L.len.toNat)) := by
  simp only [runRc4_eq, State.readWindow_unraced hr, windows]

/-- A run that has not raced takes no free byte. -/
theorem runOf_freeDraws_unraced (i : Instr) : (runOf i env L s).2.freeDraws = s.freeDraws := by
  cases i with
  | genkey => rw [runOf, runGenkey_state, State.consumeEntropy_freeDraws]
  | xor => rw [runOf, runXor_unraced hr]
  | rc4 => rw [runOf, runRc4_unraced hr]; rfl
  | cbcenc =>
    rw [runOf, runCbcenc_eq env L s s s _ _ (State.readWindow_unraced hr) (State.readWindow_unraced hr)]
    split <;> rfl
  | cbcdec =>
    rw [runOf, runCbcdec_eq env L s s s _ _ (State.readWindow_unraced hr) (State.readWindow_unraced hr)]
    split <;> rfl

end Unraced

/-! ### The errors of a command -/

/-- The error reported comes of one of the four groups of checks (R105). -/
theorem checkError_eq_some_cases {p : Params} {i : Instr} {L : Latch} {e : CmdError} (h : checkError p i L = some e) :
    preconditionError p i L = some e ∨ formatError i L = some e ∨ rangeError p i L = some e ∨
      overlapError i L = some e := by
  rw [checkError] at h
  cases hpre : preconditionError p i L <;> rw [hpre] at h
  · cases hformat : formatError i L <;> rw [hformat] at h
    · cases hrange : rangeError p i L <;> rw [hrange] at h
      · exact .inr (.inr (.inr h))
      · exact .inr (.inr (.inl h))
    · exact .inr (.inl h)
  · exact .inl h

/-- A failing check is one R202 lists for the command. -/
theorem checkError_possible {s : State} {i : Instr} {L : Latch} {e : CmdError} (h : checkError s.params i L = some e) :
    (e.code, e.cause) ∈ possibleErrors i := by
  rcases checkError_eq_some_cases h with h | h | h | h
  · rw [preconditionError_eq_ite] at h
    split_ifs at h with hlen hkey hsize <;> cases h
    · rw [hlen.1]; decide
    · rw [hkey.1]; decide
    · rcases hsize.1 with rfl | rfl <;> decide
  · rw [formatError_eq_ite] at h
    split_ifs at h with hshort hformat <;> cases h
    · rw [hshort.1]; decide
    · rw [hformat.1]; decide
  · rw [rangeError_eq_ite] at h
    split_ifs at h with hsrc hk hdst <;> cases h
    · have hi := hsrc.1
      cases i <;> revert hi <;> decide
    · have hi := hk.1
      cases i <;> revert hi <;> decide
    · cases i <;> decide
  · rw [overlapError] at h
    split_ifs at h with hover
    cases h
    have hi := ((overlapBad_iff i L).mp hover).1
    cases i <;> revert hi <;> decide

/-- An error a run answers is one R202 lists for the command: exhausted entropy, or bad padding. -/
theorem runOf_error_possible {env : Environment} {i : Instr} {L : Latch} {s : State} {e : CmdError}
    (h : (runOf i env L s).1 = .error e) : (e.code, e.cause) ∈ possibleErrors i := by
  cases i with
  | genkey =>
    rw [runOf, runGenkey_eq] at h
    cases ha : s.entropyAnswer env L.len.toNat <;> rw [ha] at h <;> cases h
    decide
  | xor => cases h
  | rc4 => cases h
  | cbcenc =>
    rcases hk : s.readWindow env (windows .cbcenc L).key with ⟨k, s₁⟩
    rcases hP : s₁.readWindow env (windows .cbcenc L).source with ⟨P, s₂⟩
    rw [runOf, runCbcenc_eq env L s s₁ s₂ k P hk hP] at h
    cases ha : s₂.entropyAnswer env 16 <;> rw [ha] at h <;> cases h
    decide
  | cbcdec =>
    rcases hk : s.readWindow env (windows .cbcdec L).key with ⟨k, s₁⟩
    rcases hB : s₁.readWindow env (windows .cbcdec L).source with ⟨Bl, s₂⟩
    rw [runOf, runCbcdec_eq env L s s₁ s₂ k Bl hk hB] at h
    cases hp : padCheck (lastPlainBlock (env.decryptBlock s.params k) (blockAt Bl 0) (Bl.drop 16)) <;>
      rw [hp] at h <;> cases h
    rcases padCheck_error hp with rfl | rfl <;> decide

/-! ### The answer of a completion -/

/-- The completion of a command that answered `r`, with the draws as they stand in `u` (R109, R110). -/
def recordAnswer (d : Nat) (r : Except CmdError (List Byte)) (u s : State) : State :=
  { (match r with
      | .error e => s.failWith e
      | .ok out => s.succeed d out) with
    entropyAnswers := u.entropyAnswers, entropyDraws := u.entropyDraws, freeDraws := u.freeDraws }

theorem recordAnswer_error (d : Nat) (e : CmdError) (u s : State) :
    recordAnswer d (.error e) u s = { s.failWith e with
      entropyAnswers := u.entropyAnswers, entropyDraws := u.entropyDraws, freeDraws := u.freeDraws } := rfl

theorem recordAnswer_ok (d : Nat) (out : List Byte) (u s : State) :
    recordAnswer d (.ok out) u s = { s.succeed d out with
      entropyAnswers := u.entropyAnswers, entropyDraws := u.entropyDraws, freeDraws := u.freeDraws } := rfl

/-- What is known of an answer and of the draws it leaves: an error is one R202 gives the command, output comes of a run
after every check passed and is that run's own unless the command raced, and only a raced command takes free bytes. -/
structure AnswerOf (env : Environment) (i : Instr) (L : Latch) (s : State) (r : Except CmdError (List Byte))
    (u : State) : Prop where
  error_possible : ∀ e, r = .error e → (e.code, e.cause) ∈ possibleErrors i
  output : ∀ out, r = .ok out → checkError s.params i L = none ∧
    ∃ o, (runOf i env L s).1 = .ok o ∧ out.length = o.length ∧ (s.raced = false → out = o)
  freeDraws : s.raced = false → u.freeDraws = s.freeDraws

theorem runOf_raced (i : Instr) (env : Environment) (L : Latch) (s : State) :
    (runOf i env L s).2.raced = s.raced := by
  obtain ⟨r, c, q, d, f, h⟩ := runOf_same i env L s
  rw [h]

/-- The draws a run leaves depend on its inputs only. -/
theorem runOf_draws_congr {env : Environment} {i : Instr} {L : Latch} {s s' : State} (h : AgreeOnInputs env i L s s') :
    (runOf i env L s').2.entropyAnswers = (runOf i env L s).2.entropyAnswers ∧
      (runOf i env L s').2.entropyDraws = (runOf i env L s).2.entropyDraws := by
  obtain ⟨r, c, f, hs⟩ := runOf_state i env L s
  obtain ⟨r', c', f', hs'⟩ := runOf_state i env L s'
  rw [hs, hs', afterDraw, afterDraw]
  split_ifs <;> simp [h.entropyAnswers, h.entropyDraws]

/-- The completion of a command records one answer, the same in every state that agrees on the command's inputs. -/
theorem complete_eq_recordAnswer (env : Environment) (i : Instr) (L : Latch) (s : State) :
    ∃ r u, AnswerOf env i L s r u ∧ ∀ s', AgreeOnInputs env i L s s' →
      complete env i (runOf i) L s' = recordAnswer L.dst.toNat r u s' := by
  cases hc : checkError s.params i L with
  | some e =>
    refine ⟨.error e, s, ⟨fun e' he => ?_, nofun, fun _ => rfl⟩, fun s' h => ?_⟩
    · cases he
      exact checkError_possible hc
    · rw [complete_of_checkError (e := e) (by rw [h.params]; exact hc), recordAnswer_error, ← h.entropyAnswers,
        ← h.entropyDraws, ← h.freeDraws]
      rfl
  | none =>
    cases hrun : (runOf i env L s).1 with
    | error e =>
      refine ⟨.error e, (runOf i env L s).2, ⟨fun e' he => ?_, nofun, fun hr => runOf_freeDraws_unraced hr env L i⟩,
        fun s' h => ?_⟩
      · cases he
        exact runOf_error_possible hrun
      · obtain ⟨hans, hfree⟩ := runOf_congr h
        obtain ⟨hq, hd⟩ := runOf_draws_congr h
        rw [complete_of_run_error (by rw [h.params]; exact hc) (hans.trans hrun), recordAnswer_error,
          (runOf_same i env L s').failWith_eq, hq, hd, hfree]
    | ok o =>
      refine ⟨.ok ((runOf i env L s).2.outputBytes env o).1, ((runOf i env L s).2.outputBytes env o).2,
        ⟨nofun, fun out ho => ?_, fun hr => ?_⟩, fun s' h => ?_⟩
      · cases ho
        refine ⟨hc, o, hrun, State.length_outputBytes env o _, fun hr => ?_⟩
        rw [State.outputBytes_unraced ((runOf_raced i env L s).trans hr)]
      · rw [State.outputBytes_unraced ((runOf_raced i env L s).trans hr)]
        exact runOf_freeDraws_unraced hr env L i
      · obtain ⟨hans, hfree⟩ := runOf_congr h
        obtain ⟨hq, hd⟩ := runOf_draws_congr h
        have hraced : (runOf i env L s').2.raced = (runOf i env L s).2.raced := by
          rw [runOf_raced, runOf_raced, h.raced]
        rw [complete_of_run_ok (by rw [h.params]; exact hc) (hans.trans hrun), recordAnswer_ok,
          ((runOf_same i env L s').outputBytes env o).succeed_eq, outputBytes_entropyAnswers, outputBytes_entropyDraws,
          outputBytes_entropyAnswers, outputBytes_entropyDraws, hq, hd, outputBytes_congr hraced hfree]

/-- A next state of a command records an answer to the latched command. -/
theorem exec_next_recordAnswer {i : Instr} {s t : State} (h : exec i s = .next t) :
    ∃ L r u, s.latch = some L ∧ AnswerOf Config.env i L s r u ∧ t = recordAnswer L.dst.toNat r u s := by
  obtain ⟨L, hL, rfl⟩ := exec_next h
  obtain ⟨r, u, hr, hrec⟩ := complete_eq_recordAnswer Config.env i L s
  exact ⟨L, r, u, hL, hr, hrec s (.refl _ _ _ _)⟩

end Sys2Proof.Proofs
end

section
/-! PROOFS. The frame of every command, which error it reports and what it does not depend on (40_command_framework R105 to
R112; 60_exceptions R202 to R204): each is read off the answer a completion records; the obligations O25 to O31 and O33
to O36. -/

open Sys2Proof Sys2Proof.Machine Sys2Proof.Claims

namespace Sys2Proof.Proofs

/-! ### Every command completes -/

/-- Settles O25: success, or an error of R201. -/
theorem everyCommandCompletesAndScrubs : Obligations.EveryCommandCompletesAndScrubs := by
  intro i s L hL
  obtain ⟨r, u, -, hrec⟩ := complete_eq_recordAnswer Config.env i L s
  refine ⟨_, exec_of_latch hL i, ?_⟩
  rw [hrec s (.refl _ _ _ _)]
  cases r with
  | error e => exact ⟨rfl, rfl, .inr ⟨e, rfl, rfl⟩, rfl, rfl, rfl⟩
  | ok out => exact ⟨rfl, rfl, .inl ⟨rfl, rfl⟩, rfl, rfl, rfl⟩

/-- Settles O26. -/
theorem noLatchNoCompletion : Obligations.NoLatchNoCompletion := by
  intro i s hL
  rw [exec_eq_completeLatched, completeLatched, hL]

/-! ### The check pipeline -/

/-- Settles O27: the first failing check of R105 is the model's, and it completes the command at once. -/
theorem firstFailingCheckIsReported : Obligations.FirstFailingCheckIsReported := by
  intro i s L e c hL hf
  rw [firstError_eq_checkError, Option.map_eq_some_iff] at hf
  obtain ⟨err, hc, heq⟩ := hf
  cases heq
  rw [exec_of_latch hL, complete_of_checkError hc]
  rfl

/-- Settles O28: it is the first check of R105. -/
theorem xorLengthMismatchAlwaysFails : Obligations.XorLengthMismatchAlwaysFails :=
  fun s L hL hne => firstFailingCheckIsReported .xor s L 2#4 1#8 hL (if_pos ⟨rfl, hne⟩)

/-- Settles O29: a success clears ERR, and every error an answer can be is in the command's row. -/
theorem eachCommandRaisesOnlyItsErrors : Obligations.EachCommandRaisesOnlyItsErrors := by
  intro i s t h herr
  obtain ⟨L, r, u, -, hr, rfl⟩ := exec_next_recordAnswer h
  cases r with
  | error e => exact hr.error_possible e rfl
  | ok out => exact absurd rfl herr

/-! ### What a command leaves unchanged -/

/-- Settles O30: the error completion touches neither DMEM nor a register beside its own. -/
theorem errorCompletionLeavesNoPartialEffect : Obligations.ErrorCompletionLeavesNoPartialEffect := by
  intro i s t h herr
  obtain ⟨L, r, u, -, -, rfl⟩ := exec_next_recordAnswer h
  cases r with
  | error e => exact ⟨rfl, rfl⟩
  | ok out => exact absurd rfl herr

/-- The length of a checked destination window fits OUTLEN: the range check leaves 2^32 only for a CBCENC that fills
DMEM, whose key would overlap its blob (R107, R108). -/
theorem destLength_lt_of_checked {s : State} {i : Instr} {L : Latch} (hc : checkError s.params i L = none) :
    destLength i L < 2 ^ 32 := by
  have hlen := L.len.isLt
  cases i with
  | genkey => exact hlen
  | xor => exact hlen
  | rc4 => exact hlen
  | cbcdec => exact Nat.lt_of_le_of_lt (Nat.sub_le _ _) hlen
  | cbcenc =>
    obtain ⟨hpre, -, hrange, hover⟩ := checkError_eq_none.mp hc
    have hkey : 1 ≤ L.klen.toNat := by
      by_contra h0
      have hacc : s.params.acceptsKey L.klen.toNat = false := by
        rw [Bool.eq_false_iff, ne_eq, Params.acceptsKey_iff]
        exact fun hk => h0 hk.1
      simp [preconditionError, hacc] at hpre
    have hdest := dest_inRange_of_checked hc
    obtain ⟨-, hk, -⟩ := rangeError_eq_none.mp hrange
    rw [Window.inRange_iff] at hk
    have hfree := (overlapBad_iff .cbcenc L).not.mp (by rw [overlapError_eq_none.mp hover]; decide)
    have hmem := s.params.memSize_le
    simp only [windows, blobLength, destLength, apart] at hdest hk hfree ⊢
    by_contra hbig
    exact hfree ⟨nofun, .inl fun hap => hap ⟨by omega, by omega, by omega, by omega⟩⟩

/-- OUTLEN holds the length of a command's output (R109). -/
theorem AnswerOf.outlen {env : Environment} {i : Instr} {L : Latch} {s u : State} {out : List Byte}
    (h : AnswerOf env i L s (.ok out) u) :
    out.length ≤ destLength i L ∧ (BitVec.ofNat 32 out.length).toNat = out.length := by
  obtain ⟨hc, o, ho, hlen, -⟩ := h.output out rfl
  have hfit : out.length ≤ destLength i L := by
    rw [hlen, ← windows_dest_size]
    exact length_runOf_le ho
  have hlt := destLength_lt_of_checked hc
  exact ⟨hfit, by rw [BitVec.toNat_ofNat]; exact Nat.mod_eq_of_lt (by omega)⟩

/-- Settles O31: a success writes its output from DST on, an error nothing. -/
theorem commandChangesOnlyItsDestination : Obligations.CommandChangesOnlyItsDestination := by
  intro i s t L hL h
  obtain ⟨L', r, u, hL', hr, rfl⟩ := exec_next_recordAnswer h
  cases hL.symm.trans hL'
  cases r with
  | error e => exact ⟨Nat.zero_le _, fun _ _ => rfl, ⟨s.dmem, u.freeDraws, rfl⟩, hr.freeDraws⟩
  | ok out =>
    obtain ⟨hfit, hout⟩ := hr.outlen
    rw [recordAnswer_ok]
    simp only [State.succeed_outlen, hout]
    refine ⟨hfit, fun a ha => ?_, ⟨Memory.writeBytes s.dmem L.dst.toNat out, u.freeDraws, rfl⟩, hr.freeDraws⟩
    exact Memory.read_writeBytes_outside _ _ _ (by omega)

/-! ### What a command does not depend on -/

/-- The input addresses of a command are those of its source and key windows (R106). -/
theorem inInput_iff_covers (i : Instr) (L : Latch) (a : Nat) :
    inInput i L a ↔ (windows i L).source.covers a = true ∨ (windows i L).key.covers a = true := by
  rw [Window.covers_iff, Window.covers_iff]
  cases i <;> simp [inInput, windows, Window.unused]

theorem inDest_iff_covers (i : Instr) (L : Latch) (a : Nat) :
    inDest i L a ↔ (windows i L).dest.covers a = true := by
  rw [Window.covers_iff, windows_dest_start, windows_dest_size, inDest]

/-- Two memories that read the same at every input address agree on the input windows (R112). -/
theorem agreeOnInputs_dmem {env : Environment} {i : Instr} {L : Latch} {s : State} {m : Memory}
    (h : ∀ a, inInput i L a → Memory.read env m a = Memory.read env s.dmem a) :
    AgreeOnInputs env i L s { s with dmem := m } where
  params := rfl
  raced := rfl
  entropyAnswers := rfl
  entropyDraws := rfl
  freeDraws := rfl
  source := Memory.readBytes_congr fun x hlo hhi =>
    h x ((inInput_iff_covers i L x).mpr (.inl ((Window.covers_iff _ x).mpr ⟨hlo, hhi⟩)))
  key := Memory.readBytes_congr fun x hlo hhi =>
    h x ((inInput_iff_covers i L x).mpr (.inr ((Window.covers_iff _ x).mpr ⟨hlo, hhi⟩)))

/-- Settles O34: the two memories agree on the inputs, so one answer is recorded in both. -/
theorem commandReadsOnlyItsInputWindows : Obligations.CommandReadsOnlyItsInputWindows := by
  intro i s t L m hL hm h
  obtain ⟨r, u, hr, hrec⟩ := complete_eq_recordAnswer Config.env i L s
  have hL' : ({ s with dmem := m } : State).latch = some L := hL
  rw [exec_of_latch hL, hrec s (.refl _ _ _ _)] at h
  cases h
  refine ⟨_, exec_of_latch hL' i, ?_⟩
  rw [hrec _ (agreeOnInputs_dmem hm)]
  cases r with
  | error e => exact ⟨rfl, fun a hlo hhi => absurd hhi (Nat.not_lt.mpr hlo)⟩
  | ok out =>
    refine ⟨rfl, fun a hlo hhi => ?_⟩
    obtain ⟨-, hout⟩ := hr.outlen
    obtain ⟨k, rfl⟩ := Nat.exists_eq_add_of_le hlo
    have hk : k < out.length := by
      simp only [recordAnswer_ok, State.succeed_outlen, hout] at hhi
      omega
    exact (Memory.read_writeBytes_inside Config.env out m hk).trans
      (Memory.read_writeBytes_inside Config.env out s.dmem hk).symm

/-- Settles O35: the parameter registers are no input of a completion, and are kept. -/
theorem completionIgnoresParameterRegisters : Obligations.CompletionIgnoresParameterRegisters := by
  intro i s t a b c d e h
  obtain ⟨L, hL, rfl⟩ := exec_next h
  obtain ⟨r, u, -, hrec⟩ := complete_eq_recordAnswer Config.env i L s
  have hL' : ({ s with src := a, len := b, key := c, klen := d, dst := e } : State).latch = some L := hL
  rw [hrec s (.refl _ _ _ _), exec_of_latch hL',
    hrec { s with src := a, len := b, key := c, klen := d, dst := e } ⟨rfl, rfl, rfl, rfl, rfl, rfl, rfl⟩]
  cases r <;> rfl

/-- Settles O36: the hidden state is no input of a completion, and no register shows it. -/
theorem hiddenStateIsNeitherUsedNorShown : Obligations.HiddenStateIsNeitherUsedNorShown := by
  refine ⟨fun i s x y => ?_, fun s off l x y => ?_⟩
  · obtain hL | ⟨L, hL⟩ := s.latch.eq_none_or_eq_some
    · rw [noLatchNoCompletion i s hL, noLatchNoCompletion i { s with rc4 := x, cbc := y } hL]
    · obtain ⟨r, u, -, hrec⟩ := complete_eq_recordAnswer Config.env i L s
      have hL' : ({ s with rc4 := x, cbc := y } : State).latch = some L := hL
      rw [exec_of_latch hL, exec_of_latch hL', hrec s (.refl _ _ _ _),
        hrec { s with rc4 := x, cbc := y } ⟨rfl, rfl, rfl, rfl, rfl, rfl, rfl⟩]
      cases r <;> rfl
  · rw [readSlot_eq_registerValue, readSlot_eq_registerValue]
    rfl

/-- Settles O33: GENKEY has no input window, and its checks and its draw read LEN and DST only. -/
theorem genkeyIgnoresUnusedOperands : Obligations.GenkeyIgnoresUnusedOperands := by
  intro s L a b c hL
  let L' : Latch := { L with src := a, key := b, klen := c }
  let s' : State := { s with latch := some L' }
  obtain ⟨r, u, -, hrec⟩ := complete_eq_recordAnswer Config.env .genkey L s
  have hoperands : complete Config.env .genkey (runOf .genkey) L' s' =
      complete Config.env .genkey (runOf .genkey) L s' := rfl
  rw [exec_of_latch (s := s') (L := L') rfl, exec_of_latch hL, hoperands, hrec s (.refl _ _ _ _),
    hrec s' ⟨rfl, rfl, rfl, rfl, rfl, rfl, rfl⟩]
  cases r <;> rfl

end Sys2Proof.Proofs
end

section
/-! PROOFS. What one step can do to the machine, by its event (10_state R20; 40_command_framework R100 to R104; 70 R230):
each event with what it changes. -/

open Sys2Proof Sys2Proof.Machine Sys2Proof.Claims

namespace Sys2Proof.Proofs

/-! ### The events of a step -/

/-- The events a step can be, and the state each leaves. -/
inductive StepEvent (s t : State) : Prop
  /-- The platform resets the core (R230). -/
  | reset (hturn : s.turns.head? = some .reset) (ht : t = s.popTurn.resetInput Config.env)
  /-- The latched word completes with an error, as an illegal word or as a command (R74, R110). -/
  | error (hmove : coreMoves s) (e : CmdError) (u : State)
      (ht : t = { s.popTurn.failWith e with
        entropyAnswers := u.entropyAnswers, entropyDraws := u.entropyDraws, freeDraws := u.freeDraws })
  /-- A command completes and writes its output (R109). -/
  | success (hmove : coreMoves s) (L : Latch) (i : Instr) (hL : s.latch = some L) (hi : decode L.cmd = .ok i)
      (out : List Byte) (u : State) (hc : checkError s.params i L = none) (hlen : out.length ≤ destLength i L)
      (ht : t = { s.popTurn.succeed L.dst.toNat out with
        entropyAnswers := u.entropyAnswers, entropyDraws := u.entropyDraws, freeDraws := u.freeDraws })
  /-- The host writes CMD while BUSY is 0 (R102). -/
  | issue (w : Word) (rest : List HostStmt) (hw : writesAt s 0x0C w rest) (hidle : s.busy = false)
      (ht : t = (s.popTurn.issue w).advance rest)
  /-- The host writes CMD while BUSY is 1 (R103). -/
  | overrun (w : Word) (rest : List HostStmt) (hw : writesAt s 0x0C w rest) (hbusy : s.busy = true)
      (ht : t = { s.popTurn with ovr := true }.advance rest)
  /-- The host writes STATUS (R28). -/
  | acknowledge (v : Word) (rest : List HostStmt) (hw : writesAt s 0x08 v rest)
      (ht : t = (s.popTurn.acknowledge v).advance rest)
  /-- The host writes a byte of DMEM (R50). -/
  | store (hmove : hostMoves s) (a : Nat) (b : Byte) (bs : List Byte) (rest left : List HostStmt)
      (hi : s.inputs = .memWrite a (b :: bs) :: rest) (ha : a < s.params.memSize)
      (ht : t = (s.popTurn.hostStore a b).advance left)
  /-- Any other step of the host: it leaves STATUS, the result registers, the latch and DMEM. -/
  | quiet (ie : Bool) (src len key klen dst : Word) (free : Nat) (left : List HostStmt) (results : List HostResult)
      (ht : t = { s.popTurn with
        ie := ie, src := src, len := len, key := key, klen := klen, dst := dst, freeDraws := free
        inputs := left, results := results })

/-- A completion is one of the three completion events. -/
theorem stepEvent_of_coreStep {s t : State} (hmove : coreMoves s) (h : coreStep exec s.popTurn = .next t) :
    StepEvent s t := by
  obtain ⟨L, hL, ⟨e, -, rfl⟩ | ⟨i, hi, hexec⟩⟩ := coreStep_cases h
  · exact .error hmove _ s rfl
  · obtain ⟨L', r, u, hL', hr, rfl⟩ := exec_next_recordAnswer hexec
    cases hL.symm.trans hL'
    cases r with
    | error e => exact .error hmove e u rfl
    | ok out =>
      obtain ⟨hc, -⟩ := hr.output out rfl
      exact .success hmove L i hL hi out u hc hr.outlen.1 rfl

/-- A write of the register block is an issue, an overrun, an acknowledge, or quiet. -/
theorem stepEvent_of_writeSlot {s : State} {off : Nat} {v : Word} {rest : List HostStmt} (hw : writesAt s off v rest) :
    StepEvent s ((s.popTurn.writeSlot off v).advance rest) := by
  obtain ⟨rfl, hidle, h⟩ | ⟨rfl, hbusy, h⟩ | ⟨rfl, h⟩ | ⟨ie, a, b, c, d, e, h⟩ := s.popTurn.writeSlot_cases off v
  · exact .issue v rest hw hidle (by rw [h])
  · exact .overrun v rest hw hbusy (by rw [h])
  · exact .acknowledge v rest hw (by rw [h])
  · exact .quiet ie a b c d e s.freeDraws rest s.results (by rw [h]; rfl)

/-- A step of the host is a write of the block, a store, or quiet. -/
theorem stepEvent_of_hostStep {s t : State} (hmove : hostMoves s) (h : hostStep Config.env s.popTurn = .next t) :
    StepEvent s t := by
  obtain ⟨hi, ht⟩ | ⟨addr, w, rest, off, hi, hs, ht⟩ | ⟨addr, w, v, rest, off, hi, hs, ht⟩ | ⟨rest, hi, hb, ht⟩ |
    ⟨rest, hi, hb, ht⟩ | ⟨a, rest, r, f, hi, ha, ht⟩ | ⟨a, rest, hi, ht⟩ | ⟨a, b, bs, rest, hi, ha, ht⟩ :=
    hostStep_cases h
  case inr.inr.inl =>
    obtain ⟨rfl, rfl, -, -⟩ := slotOf_eq_some hs
    rw [ht]
    exact stepEvent_of_writeSlot ⟨hmove, hi⟩
  case inr.inr.inr.inr.inr.inr.inr => exact .store hmove a b bs rest _ hi ha ht
  all_goals exact .quiet s.ie s.src s.len s.key s.klen s.dst _ _ _ ht

/-- Every step is one of the events. -/
theorem stepEvent_of_step {s t : State} (h : step s = .next t) : StepEvent s t := by
  obtain ⟨hn, ht⟩ | ⟨hn, h⟩ | ⟨hn, h⟩ := step_cases h
  · exact .reset ((nextAgent_eq_reset_iff s).mp hn) ht
  · exact stepEvent_of_coreStep ((nextAgent_eq_core_iff s).mp hn) h
  · exact stepEvent_of_hostStep ((nextAgent_eq_host_iff s).mp hn).1 h

end Sys2Proof.Proofs
end

section
/-! PROOFS. The windows of a running command as the host and the reset see them (20_memory R64; 70 R230), the host's
accesses to DMEM, and the reset input; the obligations O6, O47 and O48. -/

open Sys2Proof Sys2Proof.Machine Sys2Proof.Claims

namespace Sys2Proof.Proofs

/-! ### The windows of a running command -/

/-- Only a legal word has windows (R64, R106). -/
theorem latchedWindows_of_ok {L : Latch} {i : Instr} (hi : decode L.cmd = .ok i) : latchedWindows L = windows i L := by
  rw [latchedWindows, hi]

theorem latchedWindows_of_error {L : Latch} {e : DecodeError} (he : decode L.cmd = .error e) :
    latchedWindows L = Windows.none := by
  rw [latchedWindows, he]

@[simp] theorem unused_covers (a : Nat) : Window.unused.covers a = false := by
  simp [Window.covers, Window.unused]

/-- The destination window of a latched word holds the destination bytes of the command it names. -/
theorem latchedWindows_dest_covers_iff (L : Latch) (a : Nat) :
    (latchedWindows L).dest.covers a = true ↔ ∃ i, decode L.cmd = .ok i ∧ inDest i L a := by
  rcases hd : decode L.cmd with e | i
  · simp [latchedWindows_of_error hd, Windows.none]
  · simp [latchedWindows_of_ok hd, inDest_iff_covers]

/-- Its source and key windows hold the input bytes of that command. -/
theorem latchedWindows_input_covers_iff (L : Latch) (a : Nat) :
    ((latchedWindows L).source.covers a = true ∨ (latchedWindows L).key.covers a = true) ↔
      ∃ i, decode L.cmd = .ok i ∧ inInput i L a := by
  rcases hd : decode L.cmd with e | i
  · simp [latchedWindows_of_error hd, Windows.none]
  · simp [latchedWindows_of_ok hd, inInput_iff_covers]

/-- Without a command running no window is owned. -/
theorem ownedWindows_of_idle {s : State} (h : s.busy = false) : s.ownedWindows = Windows.none := by
  rw [State.ownedWindows]
  cases s.latch <;> simp [h]

theorem ownedWindows_of_no_latch {s : State} (h : s.latch = none) : s.ownedWindows = Windows.none := by
  rw [State.ownedWindows, h]

theorem ownedWindows_of_running {s : State} {L : Latch} (hb : s.busy = true) (hL : s.latch = some L) :
    s.ownedWindows = latchedWindows L := by
  simp [State.ownedWindows, hL, hb]

theorem ownedWindows_dest_covers_iff (s : State) (a : Nat) :
    s.ownedWindows.dest.covers a = true ↔ runningDest s a := by
  rw [runningDest]
  cases hb : s.busy with
  | false => simp [ownedWindows_of_idle hb, Windows.none]
  | true =>
    cases hL : s.latch with
    | none => simp [ownedWindows_of_no_latch hL, Windows.none]
    | some L => simp [ownedWindows_of_running hb hL, latchedWindows_dest_covers_iff]

/-- The host races exactly with the bytes of the running command's windows (R64 (b)). -/
theorem owns_iff (s : State) (a : Nat) : s.owns a = true ↔ runningWindow s a := by
  rw [runningWindow, State.owns, Bool.or_eq_true, Bool.or_eq_true]
  cases hb : s.busy with
  | false => simp [ownedWindows_of_idle hb, Windows.none]
  | true =>
    cases hL : s.latch with
    | none => simp [ownedWindows_of_no_latch hL, Windows.none]
    | some L =>
      simp [ownedWindows_of_running hb hL, latchedWindows_dest_covers_iff, latchedWindows_input_covers_iff, and_or_left,
        exists_or]

/-! ### Host accesses to DMEM -/

theorem step_memRead {s : State} {a : Nat} {rest : List HostStmt} (hm : hostMoves s)
    (hi : s.inputs = .memRead a :: rest) : step s = hostMemRead Config.env a rest s.popTurn := by
  rw [step_eq_hostStep hm (by simp [hi]), hostStep, show s.popTurn.inputs = _ from hi]

theorem step_memWrite {s : State} {a : Nat} {bs : List Byte} {rest : List HostStmt} (hm : hostMoves s)
    (hi : s.inputs = .memWrite a bs :: rest) : step s = hostMemWrite a bs rest s.popTurn := by
  rw [step_eq_hostStep hm (by simp [hi]), hostStep, show s.popTurn.inputs = _ from hi]

/-- Settles O47: the running destination window decides between the byte and a free byte. -/
theorem hostDmemReadReturnsByteOrFreeValue : Obligations.HostDmemReadReturnsByteOrFreeValue := by
  intro s a rest hm hi
  have hown : s.popTurn.ownedWindows.dest.covers a = true ↔ runningDest s a := ownedWindows_dest_covers_iff s a
  rw [step_memRead hm hi, hostMemRead, State.popTurn_params]
  refine ⟨fun ha hnot => ?_, fun ha hrun => ?_, fun ha => if_pos ha⟩
  · rw [if_neg (Nat.not_le.mpr ha), if_neg (fun h => hnot (hown.mp h))]
    rfl
  · rw [if_neg (Nat.not_le.mpr ha), if_pos (hown.mpr hrun)]
    rfl

theorem memLeft_eq_ite (a : Nat) (bs : List Byte) (rest : List HostStmt) :
    memLeft a bs rest = if bs = [] then rest else .memWrite (a + 1) bs :: rest := by
  cases bs <;> rfl

/-- Settles O48: the store changes the byte at `a`, and the two marks by `owns`. -/
theorem hostDmemWriteStoresAndMarksRaces : Obligations.HostDmemWriteStoresAndMarksRaces := by
  intro s a b bs rest hm hi ha
  refine ⟨(s.popTurn.hostStore a b).advance (memLeft a bs rest), ?_, ?_, fun x hx => ?_, fun hrun => ?_,
    fun hnot => ?_, ?_⟩
  · rw [step_memWrite hm hi]
    exact if_neg (Nat.not_le.mpr ha)
  · exact Memory.read_write_same _ _ _ _
  · exact Memory.read_write_other _ _ _ hx
  · have hown : s.popTurn.owns a = true := (owns_iff s a).mpr hrun
    simp [hown]
  · have hown : s.popTurn.owns a = false := Bool.eq_false_iff.mpr fun h => hnot ((owns_iff s a).mp h)
    simp [hown]
  · rw [memLeft_eq_ite]
    rfl

/-! ### The reset input -/

/-- The window whose bytes a reset makes free: the destination window of the latched word (R230). -/
def cutWindow (s : State) : Window :=
  match s.latch with
  | some L => (latchedWindows L).dest
  | none => Window.unused

/-- How many bytes of it exist. -/
def cutLength (s : State) : Nat := (cutWindow s).existing s.params

theorem resetInput_eq (env : Environment) (s : State) :
    s.resetInput env = { State.reset with
      params := s.params
      dmem := Memory.writeBytes s.dmem (cutWindow s).start (freeBytes env s.freeDraws (cutLength s))
      raceMark := s.raceMark
      entropyAnswers := s.entropyAnswers
      entropyDraws := s.entropyDraws
      freeDraws := s.freeDraws + cutLength s
      inputs := s.inputs
      turns := s.turns
      results := s.results } := rfl

@[simp] theorem resetInput_params (env : Environment) (s : State) : (s.resetInput env).params = s.params := rfl
@[simp] theorem resetInput_busy (env : Environment) (s : State) : (s.resetInput env).busy = false := rfl
@[simp] theorem resetInput_done (env : Environment) (s : State) : (s.resetInput env).done = false := rfl
@[simp] theorem resetInput_ovr (env : Environment) (s : State) : (s.resetInput env).ovr = false := rfl
@[simp] theorem resetInput_raceMark (env : Environment) (s : State) : (s.resetInput env).raceMark = s.raceMark := rfl
@[simp] theorem resetInput_dmem (env : Environment) (s : State) :
    (s.resetInput env).dmem =
      Memory.writeBytes s.dmem (cutWindow s).start (freeBytes env s.freeDraws (cutLength s)) := rfl

theorem cutWindow_covers_iff (s : State) (a : Nat) :
    (cutWindow s).covers a = true ↔ ∃ L i, s.latch = some L ∧ decode L.cmd = .ok i ∧ inDest i L a := by
  rw [cutWindow]
  cases hL : s.latch with
  | none => simp
  | some L => simp [latchedWindows_dest_covers_iff]

/-- The cut bytes lie in the window and below MEM_SIZE. -/
theorem lt_cutLength_iff (s : State) (k : Nat) :
    k < cutLength s ↔ (cutWindow s).covers ((cutWindow s).start + k) = true ∧
      (cutWindow s).start + k < s.params.memSize := by
  rw [Window.covers_iff, cutLength, Window.existing]
  omega

/-- A byte outside the cut window keeps its value. -/
theorem read_resetInput_of_not_covers (env : Environment) {s : State} {a : Nat}
    (h : ¬(cutWindow s).covers a = true) :
    Memory.read env (s.resetInput env).dmem a = Memory.read env s.dmem a := by
  rw [resetInput_dmem]
  refine Memory.read_writeBytes_outside _ _ _ ?_
  rw [length_freeBytes]
  by_contra hin
  obtain ⟨k, rfl⟩ := Nat.exists_eq_add_of_le (show (cutWindow s).start ≤ a by omega)
  exact h ((lt_cutLength_iff s k).mp (by omega)).1

/-- An existing byte of the cut window becomes a free byte. -/
theorem read_resetInput_of_covers (env : Environment) {s : State} {a : Nat} (h : (cutWindow s).covers a = true)
    (ha : a < s.params.memSize) :
    Memory.read env (s.resetInput env).dmem a = env.freeByte (s.freeDraws + (a - (cutWindow s).start)) := by
  obtain ⟨k, rfl⟩ := Nat.exists_eq_add_of_le ((Window.covers_iff _ a).mp h).1
  have hk : k < (freeBytes env s.freeDraws (cutLength s)).length := by
    rw [length_freeBytes]
    exact (lt_cutLength_iff s k).mpr ⟨h, ha⟩
  rw [resetInput_dmem, Nat.add_sub_cancel_left]
  exact (Memory.read_writeBytes_inside env _ s.dmem hk).trans (by simp [freeBytes])

/-- Settles O6: the registers are those of the reset state, and DMEM changes in the cut window only. -/
theorem resetStepSetsTheResetValues : Obligations.ResetStepSetsTheResetValues := by
  intro s hturn
  refine ⟨_, step_of_reset hturn, ?_⟩
  refine ⟨rfl, rfl, rfl, rfl, rfl, rfl, rfl, rfl, rfl, rfl, rfl, rfl, rfl, rfl, rfl, rfl, rfl, rfl, rfl, rfl, rfl, rfl,
    rfl, rfl, fun a ha => ?_, fun L i a hL hi hin ha => ?_⟩
  · refine read_resetInput_of_not_covers Config.env (s := s.popTurn) fun hcov => ?_
    obtain ⟨L, i, hL, hi, hin⟩ := (cutWindow_covers_iff s.popTurn a).mp hcov
    exact ha L i hL hi hin
  · have hstart : (cutWindow s.popTurn).start = L.dst.toNat := by
      rw [cutWindow, show s.popTurn.latch = _ from hL]
      simp only [latchedWindows_of_ok hi, windows_dest_start]
    rw [← hstart]
    exact read_resetInput_of_covers Config.env (s := s.popTurn)
      ((cutWindow_covers_iff s.popTurn a).mpr ⟨L, i, hL, hi, hin⟩) ha

end Sys2Proof.Proofs
end

section
/-! PROOFS. Which events change what (10_state R27, R31, R32; 40_command_framework R100; 20_memory section 7; 60_exceptions
R208, R217), and the invariant of the machine; the obligations O19 to O23, O59 and O60. -/

open Sys2Proof Sys2Proof.Machine Sys2Proof.Claims

namespace Sys2Proof.Proofs

section Events

variable {s t : State} (h : StepEvent s t)
include h

/-! ### BUSY -/

/-- Only a write of CMD raises BUSY. -/
theorem StepEvent.busy_rises (h0 : s.busy = false) (h1 : t.busy = true) : ∃ w rest, writesAt s 0x0C w rest := by
  cases h with
  | issue w rest hw | overrun w rest hw => exact ⟨w, rest, hw⟩
  | reset _ ht | error _ _ _ ht | success _ _ _ _ _ _ _ _ _ ht | acknowledge _ _ _ ht | store _ _ _ _ _ _ _ _ ht
  | quiet _ _ _ _ _ _ _ _ _ ht => simp [ht, h0] at h1

/-- Only a completion or a reset lets BUSY fall. -/
theorem StepEvent.busy_falls (h0 : s.busy = true) (h1 : t.busy = false) :
    coreMoves s ∨ s.turns.head? = some .reset := by
  cases h with
  | reset hturn => exact .inr hturn
  | error hmove | success hmove => exact .inl hmove
  | issue _ _ _ _ ht | overrun _ _ _ _ ht | acknowledge _ _ _ ht | store _ _ _ _ _ _ _ _ ht
  | quiet _ _ _ _ _ _ _ _ _ ht => simp [ht, h0] at h1

/-! ### DONE, OVR and the race mark -/

/-- Only a completion sets DONE. -/
theorem StepEvent.done_rises (h0 : s.done = false) (h1 : t.done = true) : coreMoves s := by
  cases h with
  | error hmove | success hmove => exact hmove
  | reset _ ht | issue _ _ _ _ ht | overrun _ _ _ _ ht | acknowledge _ _ _ ht | store _ _ _ _ _ _ _ _ ht
  | quiet _ _ _ _ _ _ _ _ _ ht => simp [ht, h0] at h1

/-- Only an acknowledge of DONE, an issue or a reset clears DONE. -/
theorem StepEvent.done_falls (h0 : s.done = true) (h1 : t.done = false) :
    (∃ v rest, writesAt s 0x08 v rest ∧ v.getLsbD 1 = true) ∨
      (s.busy = false ∧ ∃ w rest, writesAt s 0x0C w rest) ∨ s.turns.head? = some .reset := by
  cases h with
  | reset hturn => exact .inr (.inr hturn)
  | issue w rest hw hidle => exact .inr (.inl ⟨hidle, w, rest, hw⟩)
  | acknowledge v rest hw ht => exact .inl ⟨v, rest, hw, by simpa [ht, h0] using h1⟩
  | error _ _ _ ht | success _ _ _ _ _ _ _ _ _ ht | overrun _ _ _ _ ht | store _ _ _ _ _ _ _ _ ht
  | quiet _ _ _ _ _ _ _ _ _ ht => simp [ht, h0] at h1

/-- Only a write of CMD while BUSY sets OVR. -/
theorem StepEvent.ovr_rises (h0 : s.ovr = false) (h1 : t.ovr = true) :
    s.busy = true ∧ ∃ w rest, writesAt s 0x0C w rest := by
  cases h with
  | overrun w rest hw hbusy => exact ⟨hbusy, w, rest, hw⟩
  | reset _ ht | error _ _ _ ht | success _ _ _ _ _ _ _ _ _ ht | issue _ _ _ _ ht | acknowledge _ _ _ ht
  | store _ _ _ _ _ _ _ _ ht | quiet _ _ _ _ _ _ _ _ _ ht => simp [ht, h0] at h1

/-- Only an acknowledge of OVR or a reset clears OVR. -/
theorem StepEvent.ovr_falls (h0 : s.ovr = true) (h1 : t.ovr = false) :
    (∃ v rest, writesAt s 0x08 v rest ∧ v.getLsbD 2 = true) ∨ s.turns.head? = some .reset := by
  cases h with
  | reset hturn => exact .inr hturn
  | acknowledge v rest hw ht => exact .inl ⟨v, rest, hw, by simpa [ht, h0] using h1⟩
  | error _ _ _ ht | success _ _ _ _ _ _ _ _ _ ht | issue _ _ _ _ ht | overrun _ _ _ _ ht
  | store _ _ _ _ _ _ _ _ ht | quiet _ _ _ _ _ _ _ _ _ ht => simp [ht, h0] at h1

/-- Only a host write to a window of the running command sets the race mark (R217). -/
theorem StepEvent.raceMark_rises (h0 : s.raceMark = false) (h1 : t.raceMark = true) :
    hostMoves s ∧ ∃ a b bs rest, s.inputs = .memWrite a (b :: bs) :: rest ∧ runningWindow s a := by
  cases h with
  | store hmove a b bs rest left hi ha ht =>
    have hown : s.popTurn.owns a = true := by simpa [ht, h0] using h1
    exact ⟨hmove, a, b, bs, rest, hi, (owns_iff s a).mp hown⟩
  | reset _ ht | error _ _ _ ht | success _ _ _ _ _ _ _ _ _ ht | issue _ _ _ _ ht | overrun _ _ _ _ ht
  | acknowledge _ _ _ ht | quiet _ _ _ _ _ _ _ _ _ ht => simp [ht, h0] at h1

/-- No event clears the race mark. -/
theorem StepEvent.raceMark_kept (h0 : s.raceMark = true) : t.raceMark = true := by
  cases h with
  | reset _ ht | error _ _ _ ht | success _ _ _ _ _ _ _ _ _ ht | issue _ _ _ _ ht | overrun _ _ _ _ ht
  | acknowledge _ _ _ ht | store _ _ _ _ _ _ _ _ ht | quiet _ _ _ _ _ _ _ _ _ ht => simp [ht, h0]

/-- No event changes the parameters of R5. -/
theorem StepEvent.params_kept : t.params = s.params := by
  cases h with
  | reset _ ht | error _ _ _ ht | success _ _ _ _ _ _ _ _ _ ht | issue _ _ _ _ ht | overrun _ _ _ _ ht
  | acknowledge _ _ _ ht | store _ _ _ _ _ _ _ _ ht | quiet _ _ _ _ _ _ _ _ _ ht => simp [ht]

/-! ### The result registers and DMEM -/

/-- Only a completion, an issue or a reset changes ERR, CAUSE or OUTLEN. -/
theorem StepEvent.results_change (hne : t.err ≠ s.err ∨ t.cause ≠ s.cause ∨ t.outlen ≠ s.outlen) :
    coreMoves s ∨ (s.busy = false ∧ ∃ w rest, writesAt s 0x0C w rest) ∨ s.turns.head? = some .reset := by
  cases h with
  | reset hturn => exact .inr (.inr hturn)
  | error hmove | success hmove => exact .inl hmove
  | issue w rest hw hidle => exact .inr (.inl ⟨hidle, w, rest, hw⟩)
  | overrun _ _ _ _ ht | acknowledge _ _ _ ht | store _ _ _ _ _ _ _ _ ht | quiet _ _ _ _ _ _ _ _ _ ht =>
    simp [ht] at hne

/-- Only a host write of it, a success whose destination holds it, or a reset that cuts such a command changes a byte. -/
theorem StepEvent.byte_changes {a : Nat} (hne : byteAt t a ≠ byteAt s a) :
    (∃ b bs rest, hostMoves s ∧ s.inputs = .memWrite a (b :: bs) :: rest) ∨
      (coreMoves s ∧ t.err = 0#4 ∧ ∃ L i, s.latch = some L ∧ decode L.cmd = .ok i ∧ inDest i L a) ∨
      (s.turns.head? = some .reset ∧ ∃ L i, s.latch = some L ∧ decode L.cmd = .ok i ∧ inDest i L a) := by
  cases h with
  | store hmove x b bs rest left hi hx ht =>
    by_cases hax : a = x
    · exact .inl ⟨b, bs, rest, hmove, hax ▸ hi⟩
    · rw [ht] at hne
      exact absurd (Memory.read_write_other _ _ _ hax) hne
  | success hmove L i hL hi out u hc hlen ht =>
    rw [ht] at hne ⊢
    refine .inr (.inl ⟨hmove, rfl, L, i, hL, hi, ?_⟩)
    by_contra hout
    rw [inDest] at hout
    exact hne (Memory.read_writeBytes_outside _ _ _ (by omega))
  | reset hturn ht =>
    rw [ht] at hne
    refine .inr (.inr ⟨hturn, (cutWindow_covers_iff s.popTurn a).mp ?_⟩)
    by_contra hcov
    exact hne (read_resetInput_of_not_covers _ hcov)
  | error _ _ _ ht | issue _ _ _ _ ht | overrun _ _ _ _ ht | acknowledge _ _ _ ht | quiet _ _ _ _ _ _ _ _ _ ht =>
    simp [ht, byteAt] at hne

end Events

/-- Settles O19. -/
theorem busyChangesOnlyByIssueAndCompletion : Obligations.BusyChangesOnlyByIssueAndCompletion :=
  ⟨fun _ _ h => ⟨(stepEvent_of_step h).busy_rises, (stepEvent_of_step h).busy_falls⟩, rfl⟩

/-- Settles O20. -/
theorem statusBitsChangeOnlyByTheirEvents : Obligations.StatusBitsChangeOnlyByTheirEvents := fun _ _ h =>
  have he := stepEvent_of_step h
  ⟨he.done_rises, he.done_falls, he.ovr_rises, he.ovr_falls, he.raceMark_rises⟩

/-- Settles O21. -/
theorem resultRegistersChangeOnlyByIssueAndCompletion : Obligations.ResultRegistersChangeOnlyByIssueAndCompletion :=
  fun _ _ h => (stepEvent_of_step h).results_change

/-- Settles O22. -/
theorem dmemChangesOnlyByItsWriters : Obligations.DmemChangesOnlyByItsWriters :=
  fun _ _ _ h => (stepEvent_of_step h).byte_changes

/-- Settles O23. -/
theorem parametersFixedAndRaceMarkKept : Obligations.ParametersFixedAndRaceMarkKept :=
  fun _ _ h => ⟨(stepEvent_of_step h).params_kept, (stepEvent_of_step h).raceMark_kept⟩

/-! ### The invariant -/

theorem reportablePair_zero : reportablePair 0#4 0#8 := .inl ⟨rfl, rfl⟩

/-- Settles O59. -/
theorem invariantHoldsAtReset : Obligations.InvariantHoldsAtReset where
  busy_iff_latched := rfl
  not_busy_and_done := nofun
  busy_results_clear := nofun
  pair_reportable := reportablePair_zero
  error_wrote_nothing _ := rfl
  hidden_absent := ⟨rfl, rfl⟩
  raced_marked := nofun
  dmem_wf := rfl
  dmem_inside := rfl

/-- The bytes a reset makes free exist. -/
theorem cutLength_exists (s : State) : cutLength s = 0 ∨ (cutWindow s).start + cutLength s ≤ s.params.memSize := by
  rw [cutLength, Window.existing]
  omega

/-- Every event keeps the invariant. -/
theorem StepEvent.inv {s t : State} (h : StepEvent s t) (hs : s.Inv) : t.Inv := by
  cases h with
  | reset _ ht =>
    subst ht
    exact {
      busy_iff_latched := rfl
      not_busy_and_done := nofun
      busy_results_clear := nofun
      pair_reportable := reportablePair_zero
      error_wrote_nothing := fun _ => rfl
      hidden_absent := ⟨rfl, rfl⟩
      raced_marked := nofun
      dmem_wf := Memory.wf_writeBytes hs.dmem_wf _ _
      dmem_inside := Memory.inside_writeBytes hs.dmem_inside (by
        rw [← List.length_eq_zero_iff, length_freeBytes]
        exact cutLength_exists s.popTurn) }
  | error _ e u ht =>
    subst ht
    exact {
      busy_iff_latched := rfl
      not_busy_and_done := nofun
      busy_results_clear := nofun
      pair_reportable := .inr ⟨e, rfl, rfl⟩
      error_wrote_nothing := fun _ => rfl
      hidden_absent := ⟨rfl, rfl⟩
      raced_marked := nofun
      dmem_wf := hs.dmem_wf
      dmem_inside := hs.dmem_inside }
  | success _ L i _ _ out u hc hlen ht =>
    subst ht
    have hdest := dest_inRange_of_checked hc
    rw [windows_dest_start, windows_dest_size] at hdest
    exact {
      busy_iff_latched := rfl
      not_busy_and_done := nofun
      busy_results_clear := nofun
      pair_reportable := reportablePair_zero
      error_wrote_nothing := fun hne => absurd rfl hne
      hidden_absent := ⟨rfl, rfl⟩
      raced_marked := nofun
      dmem_wf := Memory.wf_writeBytes hs.dmem_wf _ _
      dmem_inside := Memory.inside_writeBytes hs.dmem_inside (by
        rw [← List.length_eq_zero_iff]
        omega) }
  | issue _ _ _ _ ht =>
    subst ht
    exact {
      busy_iff_latched := rfl
      not_busy_and_done := nofun
      busy_results_clear := fun _ => ⟨rfl, rfl, rfl⟩
      pair_reportable := reportablePair_zero
      error_wrote_nothing := fun _ => rfl
      hidden_absent := hs.hidden_absent
      raced_marked := nofun
      dmem_wf := hs.dmem_wf
      dmem_inside := hs.dmem_inside }
  | acknowledge v _ _ ht =>
    subst ht
    exact { hs with
      not_busy_and_done := fun ⟨hb, hd⟩ => hs.not_busy_and_done ⟨hb, (Bool.and_eq_true_iff.mp hd).1⟩ }
  | store _ a b _ _ _ _ ha ht =>
    subst ht
    exact { hs with
      raced_marked := fun hr => by
        rcases Bool.or_eq_true_iff.mp hr with hraced | hown
        · obtain ⟨hbusy, hmark⟩ := hs.raced_marked hraced
          exact ⟨hbusy, Bool.or_eq_true_iff.mpr (.inl hmark)⟩
        · obtain ⟨hbusy, -⟩ := (owns_iff s a).mp hown
          exact ⟨hbusy, Bool.or_eq_true_iff.mpr (.inr hown)⟩
      dmem_wf := Memory.wf_write hs.dmem_wf a b
      dmem_inside := Memory.inside_write hs.dmem_inside ha b }
  | overrun _ _ _ _ ht | quiet _ _ _ _ _ _ _ _ _ ht =>
    subst ht
    exact { hs with }

/-- Settles O60. -/
theorem everyStepKeepsTheInvariant : Obligations.EveryStepKeepsTheInvariant :=
  fun _ _ hs h => (stepEvent_of_step h).inv hs

end Sys2Proof.Proofs
end

section
/-! PROOFS. A `wait` on a running command ends (30_encoding R76; 40_command_framework R104): the polls the schedule puts
first leave the machine as it is, the command completes, and the next poll ends the wait; the obligation O24. -/

open Sys2Proof Sys2Proof.Machine Sys2Proof.Claims

namespace Sys2Proof.Proofs

theorem run_succ_of_step {s t : State} (h : step s = .next t) (k : Nat) : core.run (k + 1) s = core.run k t := by
  have hcore : core.step s = .next t := h
  simp only [Host.Core.run, hcore]

/-! ### Polls -/

/-- A poll by the host. -/
theorem step_wait {s : State} {rest : List HostStmt} (hm : hostMoves s) (hi : s.inputs = .wait :: rest) :
    step s = hostWait rest s.popTurn := by
  rw [step_eq_hostStep hm (by simp [hi]), hostStep, show s.popTurn.inputs = _ from hi]

/-- A poll that shows BUSY only takes its turn. -/
theorem step_wait_of_busy {s : State} {rest : List HostStmt} (hm : hostMoves s) (hi : s.inputs = .wait :: rest)
    (hb : s.busy = true) : step s = .next s.popTurn :=
  (step_wait hm hi).trans (if_pos hb)

/-- A poll that shows BUSY = 0 ends the wait with that STATUS. -/
theorem step_wait_of_idle {s : State} {rest : List HostStmt} (hm : hostMoves s) (hi : s.inputs = .wait :: rest)
    (hb : s.busy = false) : step s = .next ((s.popTurn.report (.word s.statusWord)).advance rest) :=
  (step_wait hm hi).trans (if_neg (ne_true_of_eq_false hb))

/-- The polls of a running command take their turns and nothing else. -/
theorem run_polls {rest : List HostStmt} (n k : Nat) {s : State} (hb : s.busy = true) (hi : s.inputs = .wait :: rest)
    (ht : s.turns = List.replicate n .host) : core.run (k + n) s = core.run k { s with turns := [] } := by
  induction n generalizing s with
  | zero => rw [show ({ s with turns := [] } : State) = s by rw [show [] = s.turns from ht.symm]]; rfl
  | succ n ih =>
    have hhost : s.turns.head? = some .host := by rw [ht]; rfl
    have htail : s.popTurn.turns = List.replicate n .host := by rw [State.popTurn_turns, ht]; rfl
    rw [← Nat.add_assoc, run_succ_of_step (step_wait_of_busy (.inl hhost) hi hb), ih (s := s.popTurn) hb hi htail]
    rfl

/-! ### The completion, and the end of the wait -/

/-- With a latch the core's step completes, whatever the word, and leaves the host where it stands (R74, R104). -/
theorem coreStep_completes {s : State} {L : Latch} (hL : s.latch = some L) :
    ∃ t, coreStep exec s = .next t ∧ t.busy = false ∧ t.done = true ∧ t.inputs = s.inputs ∧ t.turns = s.turns ∧
      t.results = s.results := by
  rcases hd : decode L.cmd with e | i
  · exact ⟨_, coreStep_of_decode_error hL hd, rfl, rfl, rfl, rfl, rfl⟩
  · obtain ⟨r, u, -, hrec⟩ := complete_eq_recordAnswer Config.env i L s
    refine ⟨_, (coreStep_of_decode_ok hL hd).trans (exec_of_latch hL i), ?_⟩
    rw [hrec s (.refl _ _ _ _)]
    cases r <;> exact ⟨rfl, rfl, rfl, rfl, rfl⟩

theorem statusWord_getLsbD_zero (s : State) : s.statusWord.getLsbD 0 = s.busy := by
  rw [State.statusWord, BitVec.getLsbD_append]
  cases s.busy <;> rfl

theorem statusWord_getLsbD_one (s : State) : s.statusWord.getLsbD 1 = s.done := by
  rw [State.statusWord, getLsbD_append_of_le _ _ (by decide), BitVec.getLsbD_append]
  cases s.done <;> rfl

/-- Settles O24: n polls, the completion, and the poll that shows BUSY = 0. -/
theorem waitEndsAfterFinitelyManyPolls : Obligations.WaitEndsAfterFinitelyManyPolls := by
  intro s n rest hb hlatch hi ht
  obtain ⟨L, hL⟩ := Option.isSome_iff_exists.mp hlatch
  let u : State := { s with turns := [] }
  obtain ⟨t, hcore, htb, htd, hti, htt, htr⟩ := coreStep_completes (s := u.popTurn) hL
  have hu : step u = .next t := (step_of_coreMoves (s := u) ⟨hb, .inl rfl⟩).trans hcore
  have hti' : t.inputs = .wait :: rest := hti.trans hi
  have hlast := step_wait_of_idle (s := t) (.inr ⟨htb, by rw [htt]; nofun⟩) hti' htb
  refine ⟨(t.popTurn.report (.word t.statusWord)).advance rest, t.statusWord, ?_, rfl, htb, htd,
    congrArg (HostResult.word t.statusWord :: ·) htr, ?_, ?_⟩
  · rw [Nat.add_comm, run_polls n 2 hb hi ht, run_succ_of_step hu, run_succ_of_step hlast]
    rfl
  · rw [statusWord_getLsbD_zero, htb]
  · rw [statusWord_getLsbD_one, htd]

end Sys2Proof.Proofs
end

section
/-! PROOFS. Memory reads and writes (00_scope R10), entropy draws (41_keymaterial R121), and the exact result of each
command that has not raced (41 R120, 42 R130, 43 R147, 44 R174, R175); the obligations O37 to O42, O45 and O46. -/

open Sys2Proof Sys2Proof.Machine Sys2Proof.Claims

namespace Sys2Proof.Proofs

/-! ### Memory -/

/-- Settles O45. -/
theorem memWriteStoresConsecutiveBytes : Obligations.MemWriteStoresConsecutiveBytes := by
  intro env m a x bs
  split_ifs with h
  · obtain ⟨k, rfl⟩ := Nat.exists_eq_add_of_le h.1
    have hk : k < bs.length := by omega
    rw [Memory.read_writeBytes_inside env bs m hk, Nat.add_sub_cancel_left, List.getD_eq_getElem _ _ hk]
  · exact Memory.read_writeBytes_outside env bs m (by omega)

/-- Settles O46. -/
theorem memReadReturnsConsecutiveBytes : Obligations.MemReadReturnsConsecutiveBytes := by
  refine fun env m a n => ⟨Memory.length_readBytes env m a n, fun k hk => ?_⟩
  rw [Memory.readBytes_eq_map, List.getD_eq_getElem _ _ (by simpa using hk)]
  simp

theorem readBytes_eq_bytesAt (s : State) (a n : Nat) : Memory.readBytes Config.env s.dmem a n = bytesAt s a n :=
  Memory.readBytes_eq_map _ _ _ _

@[simp] theorem length_bytesAt (s : State) (a n : Nat) : (bytesAt s a n).length = n := by
  rw [← readBytes_eq_bytesAt, Memory.length_readBytes]

/-- A part of what was written is read back. -/
theorem bytesAt_of_writeBytes {s : State} {m : Memory} {a : Nat} {bs : List Byte} (hs : s.dmem = Memory.writeBytes m a bs)
    {i n : Nat} (h : i + n ≤ bs.length) : bytesAt s (a + i) n = (bs.drop i).take n := by
  refine List.ext_getElem (by simp; omega) fun k hk _ => ?_
  have hk' : i + k < bs.length := by
    rw [length_bytesAt] at hk
    omega
  simpa [bytesAt, byteAt, hs, Nat.add_assoc] using Memory.read_writeBytes_inside Config.env bs m hk'

/-! ### Entropy -/

/-- A ready answer of n bytes is the answer of a draw of n bytes. -/
theorem entropyAnswer_of_ready (env : Environment) (s : State) (r : List Byte) :
    { s with entropyAnswers := [.ok r] }.entropyAnswer env r.length = some r := by
  refine congrArg some (List.ext_getElem (by simp) fun k hk hk' => ?_)
  simp [List.getElem?_eq_getElem hk']

/-- Settles O37: a queue of one ready answer gives it. -/
theorem entropyMayAnswerAnything : Obligations.EntropyMayAnswerAnything :=
  ⟨fun _ _ _ => State.length_entropyAnswer, fun s r => ⟨[.ok r], entropyAnswer_of_ready Config.env s r⟩,
    fun _ _ => ⟨[.exhausted], rfl⟩⟩

/-! ### Which operands pass every check -/

theorem ite_some_eq_none {α : Type} {c : Prop} [Decidable c] {x : α} {y : Option α} :
    (if c then some x else y) = none ↔ ¬c ∧ y = none := by
  split_ifs with h <;> simp [h]

theorem firstError_genkey_eq_none_iff (s : State) (L : Latch) :
    firstError s .genkey L = none ↔ fits s L.dst.toNat L.len.toNat := by
  simp only [firstError, ite_some_eq_none, destLength, reduceCtorEq, ne_eq, not_true, false_and, or_self,
    not_false_eq_true, true_and, and_true]
  exact not_not

theorem not_overlap_iff {a b c : Prop} : ¬(¬a ∨ (¬b ∧ ¬c)) ↔ a ∧ (c ∨ b) := by tauto

/-- A command with input windows passes the pipeline exactly when it passes each check of R105. -/
theorem firstError_eq_none_iff_checks (s : State) {i : Instr} (L : Latch) (hi : i ≠ .genkey) :
    firstError s i L = none ↔
      (i = .xor → L.klen = L.len) ∧ (i = .rc4 → L.klen ≠ 0#32) ∧
      (i = .cbcenc ∨ i = .cbcdec → accepted s L.klen.toNat) ∧
      (i = .cbcdec → 32 ≤ L.len.toNat) ∧ (i = .cbcdec → L.len.toNat % 16 = 0) ∧
      fits s L.src.toNat L.len.toNat ∧ fits s L.key.toNat L.klen.toNat ∧ fits s L.dst.toNat (destLength i L) ∧
      apart L.dst.toNat (destLength i L) L.key.toNat L.klen.toNat ∧
      ((i = .xor ∨ i = .rc4) ∧ L.dst = L.src ∨ apart L.dst.toNat (destLength i L) L.src.toNat L.len.toNat) := by
  simp only [firstError, ite_some_eq_none, and_true]
  exact and_congr not_and_not_right <| and_congr not_and <| and_congr not_and_not_right <|
    and_congr (not_and.trans (imp_congr_right fun _ => Nat.not_lt)) <| and_congr not_and_not_right <|
    and_congr (not_and_not_right.trans (imp_iff_right hi)) <|
    and_congr (not_and_not_right.trans (imp_iff_right hi)) <| and_congr not_not <|
    (not_and.trans (imp_iff_right hi)).trans not_overlap_iff

theorem firstError_xor_eq_none_iff (s : State) (L : Latch) :
    firstError s .xor L = none ↔ L.klen = L.len ∧ streamOperandsFit s L := by
  simp only [firstError_eq_none_iff_checks s L (i := .xor) nofun, streamOperandsFit, destLength, reduceCtorEq,
    false_imp_iff, true_imp_iff, or_self, true_or, true_and]

theorem firstError_rc4_eq_none_iff (s : State) (L : Latch) :
    firstError s .rc4 L = none ↔ L.klen ≠ 0#32 ∧ streamOperandsFit s L := by
  simp only [firstError_eq_none_iff_checks s L (i := .rc4) nofun, streamOperandsFit, destLength, reduceCtorEq,
    false_imp_iff, true_imp_iff, or_self, or_true, true_and]

theorem firstError_cbcenc_eq_none_iff (s : State) (L : Latch) :
    firstError s .cbcenc L = none ↔ blockOperandsFit s L (16 + 16 * (L.len.toNat / 16 + 1)) := by
  simp only [firstError_eq_none_iff_checks s L (i := .cbcenc) nofun, blockOperandsFit, destLength, reduceCtorEq,
    false_imp_iff, true_imp_iff, or_self, true_or, true_and, false_and, false_or]

theorem firstError_cbcdec_eq_none_iff (s : State) (L : Latch) :
    firstError s .cbcdec L = none ↔
      32 ≤ L.len.toNat ∧ L.len.toNat % 16 = 0 ∧ blockOperandsFit s L (L.len.toNat - 17) := by
  simp only [firstError_eq_none_iff_checks s L (i := .cbcdec) nofun, blockOperandsFit, destLength, reduceCtorEq,
    false_imp_iff, true_imp_iff, or_self, or_true, true_and, false_and, false_or]
  exact and_left_comm.trans (and_congr_right' and_left_comm)

/-! ### The commands that have not raced -/

section Unraced

variable {s u : State} {L : Latch} {i : Instr} (hL : s.latch = some L) (hf : firstError s i L = none)
include hL hf

/-- A command that passes its checks and has not raced writes the output of its run. -/
theorem exec_of_run_ok {o : List Byte} (hr : s.raced = false) (h : runOf i Config.env L s = (.ok o, u)) :
    exec i s = .next (u.succeed L.dst.toNat o) := by
  have hu : u.raced = false := by
    have := runOf_raced i Config.env L s
    rwa [h, hr] at this
  rw [exec_of_latch hL, complete_of_run_ok (firstError_eq_none_iff.mp hf) (congrArg Prod.fst h), h,
    State.outputBytes_unraced hu]

/-- A command that passes its checks and whose run answers an error completes with that error. -/
theorem exec_of_run_error {e : CmdError} (h : runOf i Config.env L s = (.error e, u)) :
    exec i s = .next (u.failWith e) := by
  rw [exec_of_latch hL, complete_of_run_error (firstError_eq_none_iff.mp hf) (congrArg Prod.fst h), h]

end Unraced

/-- Settles O38: the run is one draw of LEN bytes. -/
theorem genkeyWritesItsDraw : Obligations.GenkeyWritesItsDraw := by
  intro s L hL hr hfit
  have hf := (firstError_genkey_eq_none_iff s L).mpr hfit
  have hrun := runGenkey_eq Config.env L s
  refine ⟨fun r ha => ?_, fun ha => ?_⟩
  · have hlen := State.length_entropyAnswer ha
    rw [ha] at hrun
    refine ⟨hlen, (exec_of_run_ok hL hf hr hrun).trans ?_⟩
    rw [State.succeed, hlen, BitVec.ofNat_toNat, BitVec.setWidth_eq]
    rfl
  · rw [ha] at hrun
    exact exec_of_run_error hL hf hrun

/-- Settles O39: the run reads both windows and puts out their XOR. -/
theorem xorWritesDataXorKey : Obligations.XorWritesDataXorKey := by
  intro s L hL hr hklen hfit
  have hrun := runXor_unraced hr Config.env L
  rw [readBytes_eq_bytesAt, readBytes_eq_bytesAt, hklen] at hrun
  refine (exec_of_run_ok hL ((firstError_xor_eq_none_iff s L).mpr ⟨hklen, hfit⟩) hr hrun).trans ?_
  rw [State.succeed, length_xorBytes, length_bytesAt, length_bytesAt, Nat.min_self, BitVec.ofNat_toNat,
    BitVec.setWidth_eq]
  rfl

/-- Settles O40: the run is the KSA over the key window, then the PRGA over the source window. -/
theorem rc4WritesThePrgaOutput : Obligations.Rc4WritesThePrgaOutput := by
  intro s L hL hr hklen hfit
  have hrun := runRc4_unraced hr Config.env L
  rw [readBytes_eq_bytesAt, readBytes_eq_bytesAt] at hrun
  refine (exec_of_run_ok hL ((firstError_rc4_eq_none_iff s L).mpr ⟨hklen, hfit⟩) hr hrun).trans ?_
  rw [State.succeed, length_prga, length_bytesAt, BitVec.ofNat_toNat, BitVec.setWidth_eq]
  rfl

/-- Settles O41: the run draws the IV after it has read both windows. -/
theorem cbcencWritesTheBlob : Obligations.CbcencWritesTheBlob := by
  intro s L hL hr hfit
  have hf := (firstError_cbcenc_eq_none_iff s L).mpr hfit
  have hrun := runCbcenc_eq Config.env L s s s _ _ (State.readWindow_unraced hr) (State.readWindow_unraced hr)
  simp only [windows, readBytes_eq_bytesAt] at hrun
  refine ⟨fun iv ha => ?_, fun ha => ?_⟩
  · have hlen := State.length_entropyAnswer ha
    rw [ha] at hrun
    refine ⟨hlen, (exec_of_run_ok hL hf hr hrun).trans ?_⟩
    rw [State.succeed, List.length_append, hlen, length_cbcEnc, length_pad, length_bytesAt,
      Nat.mul_div_cancel_left _ (by decide)]
    rfl
  · rw [ha] at hrun
    exact exec_of_run_error hL hf hrun

/-- Settles O42: the run judges the padding first. -/
theorem cbcdecWritesTheUnpaddedPlaintext : Obligations.CbcdecWritesTheUnpaddedPlaintext := by
  intro s L D blob hL hr hlong hblocks hfit hD hblob
  subst hD hblob
  have hf := (firstError_cbcdec_eq_none_iff s L).mpr ⟨hlong, hblocks, hfit⟩
  have hrun := runCbcdec_eq Config.env L s s s _ _ (State.readWindow_unraced hr) (State.readWindow_unraced hr)
  simp only [windows, readBytes_eq_bytesAt, List.length_drop, length_bytesAt] at hrun
  refine ⟨fun N hN => ?_, fun e he => ?_⟩
  · rw [hN] at hrun
    refine (exec_of_run_ok hL hf hr hrun).trans ?_
    have hlen : L.len.toNat - 16 - N ≤ 16 * ((L.len.toNat - 16) / 16) := by omega
    rw [State.succeed, List.length_take, length_cbcDec, List.length_drop, length_bytesAt, Nat.min_eq_left hlen]
    rfl
  · rw [he] at hrun
    exact exec_of_run_error hL hf hrun

end Sys2Proof.Proofs
end

section
/-! PROOFS. The padding validator (44_cbc R171), which bytes make CBCDEC fail (R179) and what a successful CBCENC writes
(R178); the obligations O43, O44 and O55. -/

open Sys2Proof Sys2Proof.Machine Sys2Proof.Claims

namespace Sys2Proof.Proofs

/-! ### The validator's answers -/

/-- Byte k of a block. -/
def byteOf (B : Block) (k : Nat) : Byte := B.toList.getD k 0#8

/-- The number of padding bytes a block claims: its last byte (R171). -/
def padByte (B : Block) : Nat := (byteOf B 15).toNat

/-- One of the padding bytes a block claims differs from their number. -/
def badPadding (B : Block) : Prop := ∃ k, 16 - padByte B ≤ k ∧ k < 16 ∧ (byteOf B k).toNat ≠ padByte B

theorem drop_eq_replicate_iff {l : List Byte} {n N : Nat} (b : Byte) (hl : l.length = n + N) :
    l.drop n = List.replicate N b ↔ ∀ k, n ≤ k → k < n + N → l.getD k 0#8 = b := by
  constructor
  · intro h k hlo hhi
    obtain ⟨j, rfl⟩ := Nat.exists_eq_add_of_le hlo
    have hj : (l.drop n)[j]? = some b := by rw [h, List.getElem?_replicate, if_pos (by omega)]
    rw [List.getElem?_drop] at hj
    rw [List.getD_eq_getElem?_getD, hj, Option.getD_some]
  · intro h
    refine List.ext_getElem (by simp [hl]) fun j hj _ => ?_
    have hj' : n + j < l.length := by
      rw [List.length_drop] at hj
      omega
    rw [List.getElem_drop, List.getElem_replicate, ← List.getD_eq_getElem l 0#8 hj']
    exact h _ (by omega) (by omega)

/-- The padding bytes are compared with their number, in bytes or as numbers. -/
theorem drop_bytes_eq_replicate_iff {B : Block} (hN : padByte B ≤ 16) :
    (Block.bytes B).drop (16 - padByte B) = List.replicate (padByte B) (BitVec.ofNat 8 (padByte B)) ↔
      ¬badPadding B := by
  have hlen : (Block.bytes B).length = 16 - padByte B + padByte B := by
    rw [Block.length_bytes]
    omega
  have hval : ∀ k, (Block.bytes B).getD k 0#8 = BitVec.ofNat 8 (padByte B) ↔ (byteOf B k).toNat = padByte B := by
    intro k
    rw [← BitVec.toNat_inj, BitVec.toNat_ofNat, Nat.mod_eq_of_lt (by omega)]
    rfl
  rw [drop_eq_replicate_iff _ hlen, badPadding]
  simp only [hval, Nat.sub_add_cancel hN, not_exists, not_and, not_not]

theorem padByte_eq (B : Block) : B[15].toNat = padByte B := by
  rw [padByte, byteOf, List.getD_eq_getElem _ _ (by simp), Vector.getElem_toList]

theorem padCheck_eq_ite (B : Block) :
    padCheck B =
      if padByte B < 1 ∨ 16 < padByte B then .error .paddingCount
      else if (Block.bytes B).drop (16 - padByte B) ≠ List.replicate (padByte B) (BitVec.ofNat 8 (padByte B)) then
        .error .paddingBytes
      else .ok (padByte B) := by
  rw [← padByte_eq]
  rfl

theorem padCheck_of_badCount {B : Block} (h : padByte B < 1 ∨ 16 < padByte B) : padCheck B = .error .paddingCount := by
  rw [padCheck_eq_ite, if_pos h]

theorem padCheck_of_badPadding {B : Block} (hlo : 1 ≤ padByte B) (hhi : padByte B ≤ 16) (h : badPadding B) :
    padCheck B = .error .paddingBytes := by
  rw [padCheck_eq_ite, if_neg (by omega), if_pos fun heq => (drop_bytes_eq_replicate_iff hhi).mp heq h]

theorem padCheck_of_padding {B : Block} (hlo : 1 ≤ padByte B) (hhi : padByte B ≤ 16) (h : ¬badPadding B) :
    padCheck B = .ok (padByte B) := by
  rw [padCheck_eq_ite, if_neg (by omega), if_neg (not_not.mpr ((drop_bytes_eq_replicate_iff hhi).mpr h))]

/-- Settles O55: the count is judged first, then the bytes. -/
theorem paddingValidatorAnswers : Obligations.PaddingValidatorAnswers := by
  rintro B _ rfl
  refine ⟨padCheck_of_badCount, fun hlo hhi h => padCheck_of_badPadding hlo hhi h, fun hlo hhi h => ?_⟩
  exact padCheck_of_padding hlo hhi fun ⟨k, hk, hk', hne⟩ => hne (h k hk hk')

/-- The validator raises its first error exactly on a count outside 1 to 16. -/
theorem padCheck_eq_paddingCount_iff (B : Block) :
    padCheck B = .error .paddingCount ↔ padByte B < 1 ∨ 16 < padByte B := by
  refine ⟨fun h => ?_, padCheck_of_badCount⟩
  by_contra hcount
  by_cases hbad : badPadding B
  · cases h.symm.trans (padCheck_of_badPadding (by omega) (by omega) hbad)
  · cases h.symm.trans (padCheck_of_padding (by omega) (by omega) hbad)

/-- And its second exactly on a count in 1 to 16 with a padding byte that differs. -/
theorem padCheck_eq_paddingBytes_iff (B : Block) :
    padCheck B = .error .paddingBytes ↔ 1 ≤ padByte B ∧ padByte B ≤ 16 ∧ badPadding B := by
  refine ⟨fun h => ?_, fun ⟨hlo, hhi, hbad⟩ => padCheck_of_badPadding hlo hhi hbad⟩
  by_cases hcount : padByte B < 1 ∨ 16 < padByte B
  · cases h.symm.trans (padCheck_of_badCount hcount)
  · by_contra hbad
    cases h.symm.trans (padCheck_of_padding (by omega) (by omega) fun hb => hbad ⟨by omega, by omega, hb⟩)

/-! ### The last block of a blob -/

/-- The blocks of a sequence without its first block. -/
theorem blockAt_drop (l : List Byte) (m : Nat) : blockAt (l.drop 16) m = blockAt l (m + 1) := by
  refine Vector.ext fun k hk => ?_
  rw [blockAt_getElem _ _ _ hk, blockAt_getElem _ _ _ hk, List.getD_eq_getElem?_getD, List.getD_eq_getElem?_getD,
    List.getElem?_drop, show 16 + (16 * m + k) = 16 * (m + 1) + k by omega]

/-- The block the validator judges is the last block of the blob decrypted, XOR the block before it (R175). -/
theorem lastPlainBlock_drop (D : Block → Block) {l : List Byte} (h : 32 ≤ l.length) :
    lastPlainBlock D (blockAt l 0) (l.drop 16) =
      xorBlock (D (blockAt l (l.length / 16 - 1))) (blockAt l (l.length / 16 - 2)) := by
  have hprev : (if (l.length - 16) / 16 = 1 then blockAt l 0 else blockAt (l.drop 16) ((l.length - 16) / 16 - 2)) =
      blockAt l (l.length / 16 - 2) := by
    split_ifs with hone
    · congr 1
      omega
    · rw [blockAt_drop]
      congr 1
      omega
  simp only [lastPlainBlock, List.length_drop, hprev]
  rw [blockAt_drop]
  congr 3
  omega

/-- A sequence of 16 bytes is the bytes of its block. -/
theorem bytes_blockAt_zero {l : List Byte} (h : l.length = 16) : Block.bytes (blockAt l 0) = l := by
  refine List.ext_getElem (by rw [Block.length_bytes, h]) fun k hk hk' => ?_
  have hk16 : k < 16 := by omega
  have hget := blockAt_getElem l 0 k hk16
  rw [Nat.mul_zero, Nat.zero_add, List.getD_eq_getElem _ _ hk'] at hget
  exact (Vector.getElem_toList _).trans hget

theorem bytes_xorBlock (a b : Block) : Block.bytes (xorBlock a b) = xorBytes (Block.bytes a) (Block.bytes b) :=
  bytes_blockAt_zero (by simp)

/-! ### The errors of CBCDEC -/

theorem padByte_lt_one_iff (B : Block) : padByte B < 1 ↔ byteOf B 15 = 0#8 := by
  rw [padByte, ← BitVec.toNat_inj, BitVec.toNat_ofNat, Nat.lt_one_iff, Nat.zero_mod]

/-- The last byte itself never differs from its own value. -/
theorem badPadding_iff (B : Block) :
    badPadding B ↔ ∃ k, 16 - (byteOf B 15).toNat ≤ k ∧ k < 15 ∧ byteOf B k ≠ byteOf B 15 := by
  refine exists_congr fun k => and_congr_right fun _ => ?_
  rw [padByte, ne_eq, BitVec.toNat_inj]
  constructor
  · rintro ⟨hk, hne⟩
    have hk' : k ≠ 15 := fun h => hne (by rw [h])
    exact ⟨by omega, hne⟩
  · rintro ⟨hk, hne⟩
    exact ⟨by omega, hne⟩

/-- Settles O43: the error completed is the validator's answer to the last block. -/
theorem cbcdecPaddingErrorsExactly : Obligations.CbcdecPaddingErrorsExactly := by
  intro s t L B blob hL hr hlong hblocks hfit hblob hB h
  obtain ⟨hok, herror⟩ := cbcdecWritesTheUnpaddedPlaintext s L _ blob hL hr hlong hblocks hfit rfl hblob
  have hlen : blob.length = L.len.toNat := by rw [hblob, length_bytesAt]
  rw [lastPlainBlock_drop _ (by omega), hlen] at hok herror
  generalize hlast : xorBlock _ _ = X at hok herror
  have hbyte : ∀ k, B.getD k 0#8 = byteOf X k := by
    intro k
    rw [hB, ← hlast]
    exact congrArg (·.getD k 0#8) (bytes_xorBlock _ _).symm
  have hanswer : ((t.err = 4#4 ∧ t.cause = 1#8) ↔ padCheck X = .error .paddingCount) ∧
      ((t.err = 4#4 ∧ t.cause = 2#8) ↔ padCheck X = .error .paddingBytes) := by
    cases hX : padCheck X with
    | ok N =>
      cases h.symm.trans (hok N hX)
      simp [completed]
    | error e =>
      cases h.symm.trans (herror e hX)
      rcases padCheck_error hX with rfl | rfl <;> simp [completed, CmdError.code, CmdError.cause]
  simp only [hbyte]
  rw [hanswer.1, hanswer.2, padCheck_eq_paddingCount_iff, padCheck_eq_paddingBytes_iff, padByte_lt_one_iff,
    badPadding_iff]
  exact ⟨Iff.rfl, Iff.rfl⟩

/-! ### The blob of CBCENC -/

/-- Only a command that passes its checks completes without an error. -/
theorem firstError_eq_none_of_success {s t : State} {L : Latch} {i : Instr} (hL : s.latch = some L)
    (h : exec i s = .next t) (herr : t.err = 0#4) : firstError s i L = none := by
  rcases hf : firstError s i L with _ | ⟨e, c⟩
  · rfl
  · obtain ⟨err, -, hmap⟩ := Option.map_eq_some_iff.mp ((firstError_eq_checkError s i L).symm.trans hf)
    cases hmap
    cases h.symm.trans (firstFailingCheckIsReported i s L _ _ hL hf)
    exact absurd herr err.code_ne_zero

theorem length_runCbcenc {env : Environment} {L : Latch} {s : State} {o : List Byte}
    (h : (runCbcenc env L s).1 = .ok o) : o.length = 16 + 16 * (L.len.toNat / 16 + 1) := by
  rcases hk : s.readWindow env (windows .cbcenc L).key with ⟨k, s₁⟩
  rcases hP : s₁.readWindow env (windows .cbcenc L).source with ⟨P, s₂⟩
  have hlen : P.length = L.len.toNat := by
    have := State.length_readWindow env (windows .cbcenc L).source s₁
    rwa [hP] at this
  rw [runCbcenc_eq env L s s₁ s₂ k P hk hP] at h
  cases ha : s₂.entropyAnswer env 16 <;> rw [ha] at h <;> cases h
  rw [List.length_append, State.length_entropyAnswer ha, length_cbcEnc, length_pad, hlen,
    Nat.mul_div_cancel_left _ (by decide)]

/-- Settles O44: the length is that of the run's output, and without a race O41 says what is written. -/
theorem cbcencBlobFormat : Obligations.CbcencBlobFormat := by
  intro s t L hL h herr
  have houtlen : t.outlen.toNat = 16 + 16 * (L.len.toNat / 16 + 1) := by
    obtain ⟨L', r, u, hL', hr, rfl⟩ := exec_next_recordAnswer h
    cases hL.symm.trans hL'
    cases r with
    | error e => exact absurd herr e.code_ne_zero
    | ok out =>
      obtain ⟨-, o, ho, hlen, -⟩ := hr.output out rfl
      rw [recordAnswer_ok]
      exact hr.outlen.2.trans (hlen.trans (length_runCbcenc ho))
  refine ⟨houtlen, by omega, by omega, fun hraced => ?_⟩
  obtain ⟨hok, herror⟩ := cbcencWritesTheBlob s L hL hraced
    ((firstError_cbcenc_eq_none_iff s L).mp (firstError_eq_none_of_success hL h herr))
  cases ha : s.entropyAnswer Config.env 16 with
  | none =>
    cases h.symm.trans (herror ha)
    exact absurd (show 5#4 = 0#4 from herr) (by decide)
  | some iv =>
    obtain ⟨hiv, hexec⟩ := hok iv ha
    have hdmem := congrArg State.dmem (Host.Outcome.next.inj (h.symm.trans hexec))
    rw [houtlen]
    refine ⟨iv, rfl, ?_, ?_⟩
    · exact ((bytesAt_of_writeBytes hdmem (i := 0) (n := 16) (by simp [hiv])).trans (List.take_left' hiv)).symm
    · rw [Nat.add_sub_cancel_left, bytesAt_of_writeBytes hdmem (by simp [hiv]), List.drop_left' hiv,
        List.take_of_length_le (by simp)]

end Sys2Proof.Proofs
end

section
/-! PROOFS. The stream transforms (42_vernam R132; 43_rc4 R141 to R151): the XOR cancels itself, the RC4 array stays a
permutation, and RC4 is the XOR with a keystream that the data does not touch; the obligations O49 to O53. -/

open Sys2Proof Sys2Proof.Machine Sys2Proof.Claims

namespace Sys2Proof.Proofs

/-! ### XOR -/

theorem xorBytes_cancel {D K : List Byte} (h : D.length = K.length) : xorBytes (xorBytes D K) K = D := by
  refine List.ext_getElem (by simp [h]) fun k hk hk' => ?_
  simp only [xorBytes, List.getElem_zipWith]
  exact xorByte_cancel _ _

theorem bytesAt_congr {s t : State} (h : s.dmem = t.dmem) (a n : Nat) : bytesAt s a n = bytesAt t a n := by
  simp only [bytesAt, byteAt, h]

/-- All of what was written is read back. -/
theorem bytesAt_of_writeBytes_all {s : State} {m : Memory} {a : Nat} {bs : List Byte}
    (h : s.dmem = Memory.writeBytes m a bs) : bytesAt s a bs.length = bs :=
  (bytesAt_of_writeBytes h (i := 0) (by omega)).trans List.take_length

/-- A successful XOR that has not raced has equal lengths, and its output stands at DST. -/
theorem bytesAt_of_xor_success {s t : State} {L : Latch} (hL : s.latch = some L) (hr : s.raced = false)
    (h : exec .xor s = .next t) (herr : t.err = 0#4) :
    bytesAt t L.dst.toNat L.len.toNat =
      xorBytes (bytesAt s L.src.toNat L.len.toNat) (bytesAt s L.key.toNat L.len.toNat) := by
  obtain ⟨hklen, hfit⟩ := (firstError_xor_eq_none_iff s L).mp (firstError_eq_none_of_success hL h herr)
  have hexec := xorWritesDataXorKey s L hL hr hklen hfit
  have hread := bytesAt_of_writeBytes_all (congrArg State.dmem (Host.Outcome.next.inj (h.symm.trans hexec)))
  rwa [List.length_zipWith, length_bytesAt, length_bytesAt, Nat.min_self] at hread

/-- Settles O49: the second command XORs the first one's output with the same key bytes. -/
theorem xorTwiceRestoresTheData : Obligations.XorTwiceRestoresTheData := by
  refine ⟨fun D K => xorBytes_cancel, ?_⟩
  intro s t u v L M hL hr hst hterr hM hur hdmem hsrc hlen hkey huv hverr
  have hfirst : bytesAt u M.src.toNat M.len.toNat =
      xorBytes (bytesAt s L.src.toNat L.len.toNat) (bytesAt s L.key.toNat L.len.toNat) := by
    rw [bytesAt_congr hdmem, hsrc, hlen, bytesAt_of_xor_success hL hr hst hterr]
  rw [bytesAt_of_xor_success hM hur huv hverr, hfirst, hkey]
  exact xorBytes_cancel (by simp)

/-! ### The RC4 machine -/

theorem ksaRun_eq_iterate (K : List Byte) (m : Nat) : ksaRun K m = (ksaStep K)^[m] KsaState.start := by
  induction m with
  | zero => rfl
  | succ m ih => rw [Function.iterate_succ_apply', ← ih, ksaRun]

/-- Settles O50: each step by its definition, the exchange by `SBox.at_swap`. -/
theorem rc4MachineRunsKsaThenPrga : Obligations.Rc4MachineRunsKsaThenPrga := by
  refine ⟨⟨rfl, rfl, SBox.at_identity⟩, fun K => congrArg KsaState.sbox (ksaRun_eq_iterate K 256),
    fun S D => ⟨rfl, length_prga S D⟩, ?_, ?_⟩
  · rintro K st x _ _ - - rfl rfl
    exact ⟨rfl, rfl, SBox.at_swap _ _ _ x⟩
  · rintro st _ p x _ _ rfl rfl rfl
    exact ⟨rfl, rfl, rfl, SBox.at_swap _ _ _ x, rfl⟩

/-! ### The permutation -/

theorem isPermutation_iff_bijective (S : SBox) : SBox.isPermutation S ↔ Function.Bijective (SBox.at S) :=
  (Function.bijective_iff_existsUnique _).symm

/-- An exchange composes the array with a transposition. -/
theorem at_swap_eq_comp (S : SBox) (x y : Byte) : SBox.at (SBox.swap S x y) = SBox.at S ∘ Equiv.swap x y := by
  funext z
  rw [SBox.at_swap, Function.comp_apply, Equiv.swap_comm, Equiv.swap_apply_def]
  split_ifs <;> rfl

theorem isPermutation_swap {S : SBox} (h : SBox.isPermutation S) (x y : Byte) :
    SBox.isPermutation (SBox.swap S x y) := by
  rw [isPermutation_iff_bijective, at_swap_eq_comp]
  exact ((isPermutation_iff_bijective S).mp h).comp (Equiv.bijective _)

theorem isPermutation_identity : SBox.isPermutation SBox.identity := fun v =>
  ⟨v, SBox.at_identity v, fun y hy => (SBox.at_identity y).symm.trans hy⟩

theorem isPermutation_ksaRun (K : List Byte) (m : Nat) : SBox.isPermutation (ksaRun K m).sbox := by
  induction m with
  | zero => exact isPermutation_identity
  | succ m ih => exact isPermutation_swap ih _ _

theorem isPermutation_prgaRun (D : List Byte) {st : PrgaState} (h : SBox.isPermutation st.sbox) :
    SBox.isPermutation (prgaRun st D).sbox := by
  induction D generalizing st with
  | nil => exact h
  | cons p D ih => exact ih (isPermutation_swap h _ _)

/-- Settles O51: every step exchanges two entries. -/
theorem rc4StateStaysAPermutation : Obligations.Rc4StateStaysAPermutation := fun K D n _ _ =>
  ⟨isPermutation_identity, isPermutation_ksaRun K n, isPermutation_prgaRun D (isPermutation_ksaRun K 256)⟩

/-! ### The keystream -/

/-- The keystream byte of the next PRGA step (R145). -/
def prgaKey (st : PrgaState) : Byte :=
  let u := prgaStep st 0#8
  SBox.at u.sbox (SBox.at u.sbox u.i + SBox.at u.sbox u.j)

/-- The keystream bytes of the next n PRGA steps: the machine run over zero bytes. -/
def keystream : PrgaState → Nat → List Byte
  | _, 0 => []
  | st, n + 1 => prgaKey st :: keystream (prgaStep st 0#8) n

@[simp] theorem length_keystream (st : PrgaState) (n : Nat) : (keystream st n).length = n := by
  induction n generalizing st with
  | zero => rfl
  | succ n ih => rw [keystream, List.length_cons, ih]

/-- The data byte of a step reaches the output and nothing else of the machine (R145). -/
theorem prgaStep_eq (st : PrgaState) (p : Byte) :
    prgaStep st p = { prgaStep st 0#8 with out := st.out ++ [xorByte p (prgaKey st)] } := rfl

/-- What was put out before does not change the keystream. -/
theorem keystream_out (st : PrgaState) (o : List Byte) (n : Nat) :
    keystream { st with out := o } n = keystream st n := by
  induction n generalizing st o with
  | zero => rfl
  | succ n ih => exact congrArg (prgaKey st :: ·) (ih (prgaStep st 0#8) _)

/-- The PRGA puts out the data XOR the keystream (R146). -/
theorem prgaRun_out (D : List Byte) (st : PrgaState) :
    (prgaRun st D).out = st.out ++ xorBytes D (keystream st D.length) := by
  induction D generalizing st with
  | nil => simp [xorBytes]
  | cons p D ih =>
    rw [prgaRun_cons, ih, prgaStep_eq, keystream_out]
    simp [xorBytes, keystream]

theorem prga_eq_xorBytes (S : SBox) (D : List Byte) :
    prga S D = xorBytes D (keystream (PrgaState.start S) D.length) :=
  (prgaRun_out D (PrgaState.start S)).trans (List.nil_append _)

theorem prga_prga (S : SBox) (D : List Byte) : prga S (prga S D) = D := by
  rw [prga_eq_xorBytes S (prga S D), length_prga, prga_eq_xorBytes S D]
  exact xorBytes_cancel (by simp)

theorem xorBytes_zeros (K : List Byte) : xorBytes (List.replicate K.length 0#8) K = K := by
  refine List.ext_getElem (by simp) fun k hk hk' => ?_
  simp [xorBytes]

/-- The keystream is what the PRGA puts out over zero bytes. -/
theorem prga_zeros (S : SBox) (n : Nat) : prga S (List.replicate n 0#8) = keystream (PrgaState.start S) n := by
  have h := xorBytes_zeros (keystream (PrgaState.start S) n)
  rw [length_keystream] at h
  rw [prga_eq_xorBytes, List.length_replicate, h]

/-- A successful RC4 that has not raced leaves the PRGA's output at DST. -/
theorem bytesAt_of_rc4_success {s t : State} {L : Latch} (hL : s.latch = some L) (hr : s.raced = false)
    (h : exec .rc4 s = .next t) (herr : t.err = 0#4) :
    bytesAt t L.dst.toNat L.len.toNat =
      prga (ksa (bytesAt s L.key.toNat L.klen.toNat)) (bytesAt s L.src.toNat L.len.toNat) := by
  obtain ⟨hklen, hfit⟩ := (firstError_rc4_eq_none_iff s L).mp (firstError_eq_none_of_success hL h herr)
  have hexec := rc4WritesThePrgaOutput s L hL hr hklen hfit
  have hread := bytesAt_of_writeBytes_all (congrArg State.dmem (Host.Outcome.next.inj (h.symm.trans hexec)))
  rwa [length_prga, length_bytesAt] at hread

/-- Settles O52: the data XOR the same keystream twice. -/
theorem rc4TwiceRestoresTheData : Obligations.Rc4TwiceRestoresTheData := by
  refine ⟨fun K D _ => prga_prga (ksa K) D, fun K D _ => ?_, ?_⟩
  · rw [prga_zeros, prga_eq_xorBytes]
  · intro s t u v L M hL hr hst hterr hM hur hdmem hsrc hlen hkey huv hverr
    have hfirst : bytesAt u M.src.toNat M.len.toNat =
        prga (ksa (bytesAt s L.key.toNat L.klen.toNat)) (bytesAt s L.src.toNat L.len.toNat) := by
      rw [bytesAt_congr hdmem, hsrc, hlen, bytesAt_of_rc4_success hL hr hst hterr]
    rw [bytesAt_of_rc4_success hM hur huv hverr, hfirst, hkey, prga_prga]

/-! ### The key -/

/-- The KSA's first m steps read the key bytes for n < m only (R142). -/
theorem ksaRun_congr {K₁ K₂ : List Byte} {m : Nat} (h : ∀ n, n < m → keyByte K₁ n = keyByte K₂ n) :
    ksaRun K₁ m = ksaRun K₂ m := by
  induction m with
  | zero => rfl
  | succ m ih =>
    rw [ksaRun, ksaRun, ih fun n hn => h n (by omega), ksaStep, ksaStep, ksaRun_n, h m (by omega)]

theorem keyByte_take {K : List Byte} {n : Nat} (hK : 256 < K.length) (hn : n < 256) :
    keyByte K n = keyByte (K.take 256) n := by
  have hlen : (K.take 256).length = 256 := by rw [List.length_take, Nat.min_eq_left (by omega)]
  rw [keyByte, keyByte, hlen, Nat.mod_eq_of_lt (by omega), Nat.mod_eq_of_lt hn, List.getD_eq_getElem?_getD,
    List.getD_eq_getElem?_getD, List.getElem?_take_of_lt hn]

/-- Settles O53. -/
theorem ksaDependsOnTheFirst256KeyBytes : Obligations.KsaDependsOnTheFirst256KeyBytes :=
  ⟨fun _ _ _ _ h => congrArg KsaState.sbox (ksaRun_congr h),
    fun _ hK => congrArg KsaState.sbox (ksaRun_congr fun _ => keyByte_take hK)⟩

end Sys2Proof.Proofs
end

section
/-! PROOFS. Decryption undoes encryption (44_cbc R176): block by block on sequences, and through CBCENC and CBCDEC with the
same key bytes; the obligation O58. -/

open Sys2Proof Sys2Proof.Machine Sys2Proof.Claims

namespace Sys2Proof.Proofs

/-! ### Sequences of blocks -/

/-- A byte of a sequence is a byte of one of its blocks. -/
theorem getElem_eq_blockAt (l : List Byte) (k : Nat) (hk : k < l.length) :
    l[k] = (blockAt l (k / 16))[k % 16]'(Nat.mod_lt _ (by decide)) := by
  rw [blockAt_getElem, Nat.div_add_mod, List.getD_eq_getElem _ _ hk]

/-- Sequences of whole blocks are equal when they have the same blocks. -/
theorem eq_of_blockAt_eq {l l' : List Byte} (hlen : l.length = l'.length) (hl : l'.length % 16 = 0)
    (h : ∀ m, m < l'.length / 16 → blockAt l m = blockAt l' m) : l = l' := by
  refine List.ext_getElem hlen fun k hk hk' => ?_
  simp only [getElem_eq_blockAt, h (k / 16) (by omega)]

theorem xorBlock_cancel (a b : Block) : xorBlock (xorBlock a b) b = a := by
  have h : xorBytes (Block.bytes (xorBlock a b)) (Block.bytes b) = Block.bytes a := by
    rw [bytes_xorBlock]
    exact xorBytes_cancel (by simp)
  rw [xorBlock, h]
  simpa using blockAt_bytes_append a []

/-! ### The pipelines -/

/-- Decryption undoes encryption when the block cipher does (R176). -/
theorem cbcDec_cbcEnc {D E : Block → Block} (hDE : ∀ b, D (E b) = b) (iv : Block) {Q : List Byte}
    (hQ : Q.length % 16 = 0) : cbcDec D iv (cbcEnc E iv Q) = Q := by
  obtain ⟨henc, hE⟩ := cbcEncryptionChains E iv Q hQ
  obtain ⟨hdec, hD⟩ := cbcDecryptionChains D iv (cbcEnc E iv Q) (by rw [henc, hQ])
  refine eq_of_blockAt_eq (hdec.trans henc) hQ fun m hm => ?_
  rw [hD m (by rwa [henc]), hE m hm, hDE, xorBlock_cancel]

/-- The block the validator judges is the last block of the decrypted sequence (R175). -/
theorem lastPlainBlock_eq_blockAt_cbcDec (D : Block → Block) (iv : Block) {C : List Byte} (hC : C.length % 16 = 0)
    (hpos : 0 < C.length) : lastPlainBlock D iv C = blockAt (cbcDec D iv C) (C.length / 16 - 1) := by
  obtain ⟨-, hD⟩ := cbcDecryptionChains D iv C hC
  rw [hD _ (by omega), lastPlainBlock, Nat.sub_sub]
  have hone : C.length / 16 = 1 ↔ C.length / 16 - 1 = 0 := by omega
  simp only [hone]

theorem length_pad_mod (P : List Byte) : (pad P).length % 16 = 0 := by
  rw [length_pad, Nat.mul_mod_right]

/-- The bytes of the last block of a padded sequence. -/
theorem byteOf_blockAt_pad (P : List Byte) {k : Nat} (hk : k < 16) :
    byteOf (blockAt (pad P) (P.length / 16)) k = (pad P).getD (16 * (P.length / 16) + k) 0#8 := by
  rw [byteOf, List.getD_eq_getElem _ _ (by simpa using hk), Vector.getElem_toList, blockAt_getElem _ _ _ hk]

/-- A padding byte of that block holds the number of padding bytes. -/
theorem byteOf_blockAt_pad_of_le (P : List Byte) {k : Nat} (hk : k < 16) (hpad : 16 - padCount P ≤ k) :
    byteOf (blockAt (pad P) (P.length / 16)) k = BitVec.ofNat 8 (padCount P) := by
  have hin : P.length ≤ 16 * (P.length / 16) + k := by
    rw [padCount] at hpad
    omega
  have hlt : 16 * (P.length / 16) + k - P.length < padCount P := by
    rw [padCount]
    omega
  rw [byteOf_blockAt_pad P hk, List.getD_eq_getElem?_getD, pad, List.getElem?_append_right hin,
    List.getElem?_replicate, if_pos hlt, Option.getD_some]

theorem toNat_ofNat_padCount (P : List Byte) : (BitVec.ofNat 8 (padCount P)).toNat = padCount P := by
  have := padCount_le P
  rw [BitVec.toNat_ofNat, Nat.mod_eq_of_lt (by omega)]

/-- The validator accepts the last block of a padded sequence (R170, R171). -/
theorem padCheck_blockAt_pad (P : List Byte) : padCheck (blockAt (pad P) (P.length / 16)) = .ok (padCount P) := by
  have hlo := one_le_padCount P
  have hhi := padCount_le P
  have hcount : padByte (blockAt (pad P) (P.length / 16)) = padCount P := by
    rw [padByte, byteOf_blockAt_pad_of_le P (by decide) (by omega), toNat_ofNat_padCount]
  have hgood : ¬badPadding (blockAt (pad P) (P.length / 16)) := by
    rintro ⟨k, hk, hk16, hne⟩
    rw [hcount] at hk hne
    exact hne (by rw [byteOf_blockAt_pad_of_le P hk16 hk, toNat_ofNat_padCount])
  rw [padCheck_of_padding (by omega) (by omega) hgood, hcount]

/-- The two pipelines under block functions that undo each other: the padding is accepted and the plaintext comes back. -/
theorem cbc_round_trip {D E : Block → Block} (hDE : ∀ b, D (E b) = b) (iv : Block) (P : List Byte) :
    padCheck (lastPlainBlock D iv (cbcEnc E iv (pad P))) = .ok (padCount P) ∧
      (cbcDec D iv (cbcEnc E iv (pad P))).take ((cbcEnc E iv (pad P)).length - padCount P) = P := by
  have hlen : (cbcEnc E iv (pad P)).length = 16 * (P.length / 16 + 1) := by
    rw [length_cbcEnc, length_pad, Nat.mul_div_cancel_left _ (by decide)]
  have hdec := cbcDec_cbcEnc hDE iv (length_pad_mod P)
  constructor
  · rw [lastPlainBlock_eq_blockAt_cbcDec D iv (by omega) (by omega), hdec, hlen,
      Nat.mul_div_cancel_left _ (by decide), Nat.add_sub_cancel, padCheck_blockAt_pad]
  · have hplain : 16 * (P.length / 16 + 1) - padCount P = P.length := by
      rw [padCount]
      omega
    rw [hdec, hlen, hplain, pad, List.take_left']
    rfl

/-! ### The two commands -/

/-- Under a key both machines accept, the decryption of one undoes the encryption of the other (R7). -/
theorem decryptBlock_encryptBlock_of_accepted (env : Environment) {p q : Params} {k : List Byte}
    (hp : p.acceptsKey k.length = true) (hq : q.acceptsKey k.length = true) (b : Block) :
    env.decryptBlock q k (env.encryptBlock p k b) = b := by
  simp [Environment.decryptBlock, Environment.encryptBlock, hp, hq]

theorem bytesAt_add (s : State) (a m n : Nat) : bytesAt s a (m + n) = bytesAt s a m ++ bytesAt s (a + m) n := by
  rw [bytesAt, bytesAt, bytesAt, List.range_add, List.map_append, List.map_map]
  exact congrArg _ (List.map_congr_left fun k _ => by rw [Function.comp_apply, Nat.add_assoc])

/-- The first block of a sequence that starts with 16 given bytes is theirs. -/
theorem blockAt_append_zero {iv : List Byte} (h : iv.length = 16) (C : List Byte) :
    blockAt (iv ++ C) 0 = blockAt iv 0 :=
  calc
    blockAt (iv ++ C) 0 = blockAt (Block.bytes (blockAt iv 0) ++ C) 0 := by rw [bytes_blockAt_zero h]
    _ = blockAt iv 0 := blockAt_bytes_append _ _

/-- A key that fits the operands of a CBC command is accepted. -/
theorem acceptsKey_of_blockOperandsFit {s : State} {L : Latch} {n : Nat} (h : blockOperandsFit s L n) :
    s.params.acceptsKey (bytesAt s L.key.toNat L.klen.toNat).length = true := by
  rw [length_bytesAt]
  exact (Params.acceptsKey_iff _ _).mpr h.1

/-- Settles O58: the blob is the IV and the ciphertext of the padded plaintext, and CBCDEC runs the other pipeline on it. -/
theorem cbcRoundTripRestoresThePlaintext : Obligations.CbcRoundTripRestoresThePlaintext := by
  refine ⟨fun env p k P iv C hk hC => ?_, ?_⟩
  · rw [hC]
    exact cbc_round_trip (env.decryptBlock_encryptBlock hk) iv P
  · intro s t u L M hL hr hst hterr hM hur hdmem hsrc hlen hkey hfit
    obtain ⟨houtlen, -, -, hblob⟩ := cbcencBlobFormat s t L hL hst hterr
    obtain ⟨iv, ha, hiv, hC⟩ := hblob hr
    have hivlen := State.length_entropyAnswer ha
    have hks := acceptsKey_of_blockOperandsFit
      ((firstError_cbcenc_eq_none_iff s L).mp (firstError_eq_none_of_success hL hst hterr))
    have hku := acceptsKey_of_blockOperandsFit hfit
    rw [hkey] at hku
    have hP : (bytesAt s L.src.toNat L.len.toNat).length = L.len.toNat := length_bytesAt _ _ _
    generalize bytesAt s L.key.toNat L.klen.toNat = k at hkey hks hku hC
    generalize bytesAt s L.src.toNat L.len.toNat = P at hP hC ⊢
    have hblob : bytesAt u M.src.toNat M.len.toNat =
        iv ++ cbcEnc (Config.env.encryptBlock s.params k) (blockAt iv 0) (pad P) := by
      rw [bytesAt_congr hdmem, hsrc, hlen, ← hC, show t.outlen.toNat = 16 + (t.outlen.toNat - 16) by omega,
        bytesAt_add, ← hiv, Nat.add_sub_cancel_left]
    obtain ⟨hpad, hplain⟩ :=
      cbc_round_trip (decryptBlock_encryptBlock_of_accepted Config.env hks hku) (blockAt iv 0) P
    rw [← hlen] at houtlen
    obtain ⟨hok, -⟩ := cbcdecWritesTheUnpaddedPlaintext u M _ _ hM hur (by omega) (by omega) hfit rfl hblob.symm
    rw [hkey, blockAt_append_zero hivlen, List.drop_left' hivlen] at hok
    have hC' : (cbcEnc (Config.env.encryptBlock s.params k) (blockAt iv 0) (pad P)).length = M.len.toNat - 16 := by
      rw [length_cbcEnc, length_pad, hP, houtlen]
      omega
    have hrest : M.len.toNat - 16 - padCount P = L.len.toNat := by
      rw [padCount, hP, houtlen]
      omega
    have hdec := hok _ hpad
    rw [hC'] at hplain
    rw [hplain, hrest, BitVec.ofNat_toNat, BitVec.setWidth_eq] at hdec
    exact ⟨_, hdec, rfl, rfl, hP ▸ bytesAt_of_writeBytes_all rfl⟩

end Sys2Proof.Proofs
end
